-- ==== Sys2Proof/Word.lean ====
section
/-! DEFINITION. The word types of the ports and registers (R9, R90): every value is unsigned, bit 0 is the least significant. -/

namespace Sys2Proof

/-- A transport byte, a colour channel, an opcode field. -/
abbrev Byte := BitVec 8

/-- A ROW or COL operand field (R91). -/
abbrev Half := BitVec 16

/-- A status register, a result register, a frame offset (R22, R34, R94). -/
abbrev Word := BitVec 32

/-- A command-port word: a command word or a data beat (R91, R92). -/
abbrev CmdWord := BitVec 64

/-- A transport request (R94). -/
abbrev ReqWord := BitVec 34

/-- The index of a status read (R95). -/
abbrev StatusIdx := BitVec 4

end Sys2Proof
end

