-- ==== Sys2Proof/Syntax.lean ====
section
/-! DEFINITION. The instructions (one constructor per row of opcode_table.json), the words the ports carry, and the
assembly statements of R102 and R103. -/

namespace Sys2Proof

/-- A grid cell's colour (R24). The source's fourth channel is hardwired 0x00, read by nothing, and takes no storage. -/
structure Pixel where
  red   : Byte
  green : Byte
  blue  : Byte
deriving DecidableEq, Repr

/-- The black cell {0, 0, 0} (R182). -/
def Pixel.black : Pixel := ⟨0#8, 0#8, 0#8⟩

/-- The block's transactions (R93, R94, R95). Operands have exactly the width of their fields (R96), so every term is
well formed; whether ROW and COL lie in the grid is no matter of decoding (R99). -/
inductive Instr where
  | nop
  | wrpix (row col : Half) (red green blue : Byte)
  | clear
  | loadgrid
  | beat (red green blue : Byte)
  | assemble
  | enc (v : Byte)
  | encpix (red green blue : Byte)
  | physidx (row col : Half)
  | txAcquire
  | txRead (offset : Word)
  | txRelease
  | sread (idx : StatusIdx)
deriving DecidableEq, Repr

/-- A word offered on one of the three ports (R90). -/
inductive PortWord where
  /-- 64 bits on the command port: a command word or a data beat. -/
  | command (w : CmdWord)
  /-- 34 bits on the transport port. -/
  | transport (w : ReqWord)
  /-- 4 bits on the status port. -/
  | status (i : StatusIdx)
deriving DecidableEq, Repr

/-- Assembly statements (R102) and pseudo-instructions (R103). Operands are the numbers as written; WellFormed.lean says
which fit. A colour is one number 0xRRGGBB. -/
inductive Asm where
  | nop
  | wrpix (row col rgb : Nat)
  | clear
  | loadgrid
  | beat (rgb : Nat)
  | assemble
  | enc (v : Nat)
  | encpix (rgb : Nat)
  | physidx (row col : Nat)
  | txAcquire
  | txRead (offset : Nat)
  | txRelease
  | sread (idx : Nat)
  /-- `LOADGRID c0, c1, ..., c(N-1)` (R103). -/
  | loadgridList (colours : List Nat)
  /-- `FILL 0xRRGGBB` (R103). -/
  | fill (rgb : Nat)
  /-- `TX.FRAME` (R103). -/
  | txFrame
deriving DecidableEq, Repr

end Sys2Proof
end

