-- ==== Sys2Proof/Decode.lean ====
section
/-! DEFINITION. The decoders of the three ports (R93 to R101), total on every word and rejecting by name; after them the
encoder, and the mask/match table of R93 and R94 as the spec prints it. -/

namespace Sys2Proof

/-! ### Fields (R91, R92, R94, R96): every operand is a zero-extended unsigned field -/

/-- CMD[63:56]. -/
def Field.op (w : CmdWord) : Byte := w.extractLsb' 56 8
/-- CMD[55:40]. -/
def Field.row (w : CmdWord) : Half := w.extractLsb' 40 16
/-- CMD[39:24]. -/
def Field.col (w : CmdWord) : Half := w.extractLsb' 24 16
/-- CMD[23:16], BEAT[23:16]. -/
def Field.red (w : CmdWord) : Byte := w.extractLsb' 16 8
/-- CMD[15:8], BEAT[15:8]. -/
def Field.grn (w : CmdWord) : Byte := w.extractLsb' 8 8
/-- CMD[7:0], BEAT[7:0]: BLU, and V of ENC. -/
def Field.blu (w : CmdWord) : Byte := w.extractLsb' 0 8
/-- TREQ[33:32]. -/
def Field.top (w : ReqWord) : BitVec 2 := w.extractLsb' 32 2
/-- TREQ[31:0]. -/
def Field.offset (w : ReqWord) : Word := w.extractLsb' 0 32

/-! ### Decoding -/

/-- Why a word decodes to no instruction. -/
inductive Reject where
  /-- OP in 0x08 .. 0xFF (R97). -/
  | undefinedOpcode
  /-- A defined OP with a nonzero bit outside its used fields (R97). -/
  | reservedBits
  /-- A data beat with a nonzero bit in [63:24] (R97). -/
  | reservedBeatBits
  /-- TX_ACQUIRE or TX_RELEASE with OFFSET != 0 (R94). -/
  | reservedOffset
  /-- A TREQ with TOP = 2'b00: no transaction (R94). -/
  | idle
deriving DecidableEq, Repr

/-- `i` where the reserved bits are zero, else the rejection (R97). -/
def whenReservedZero {n : Nat} (bits : BitVec n) (i : Instr) : Except Reject Instr :=
  if bits = 0#n then .ok i else .error .reservedBits

/-- R93, R97: a command word, taken while LDREM = 0. -/
def decodeCommand (w : CmdWord) : Except Reject Instr :=
  match (Field.op w).toNat with
  | 0 => whenReservedZero (w.extractLsb' 0 56) .nop
  | 1 => .ok (.wrpix (Field.row w) (Field.col w) (Field.red w) (Field.grn w) (Field.blu w))
  | 2 => whenReservedZero (w.extractLsb' 0 56) .clear
  | 3 => whenReservedZero (w.extractLsb' 0 56) .loadgrid
  | 4 => whenReservedZero (w.extractLsb' 0 56) .assemble
  | 5 => whenReservedZero (w.extractLsb' 8 48) (.enc (Field.blu w))
  | 6 => whenReservedZero (w.extractLsb' 24 32) (.encpix (Field.red w) (Field.grn w) (Field.blu w))
  | 7 => whenReservedZero (w.extractLsb' 0 24) (.physidx (Field.row w) (Field.col w))
  | _ => .error .undefinedOpcode

/-- R92, R97, R98: a data beat, taken while LDREM > 0. -/
def decodeBeat (w : CmdWord) : Except Reject Instr :=
  if w.extractLsb' 24 40 = 0#40 then .ok (.beat (Field.red w) (Field.grn w) (Field.blu w))
  else .error .reservedBeatBits

/-- R94: a transport request, decoded alike in every state (R101). -/
def decodeTreq (w : ReqWord) : Except Reject Instr :=
  match (Field.top w).toNat with
  | 0 => .error .idle
  | 1 => if Field.offset w = 0#32 then .ok .txAcquire else .error .reservedOffset
  | 2 => .ok (.txRead (Field.offset w))
  | _ => if Field.offset w = 0#32 then .ok .txRelease else .error .reservedOffset

/-- The decoder of a port's word; `loading` says that LDREM > 0 (R100), and only the command port looks at it (R101). -/
def decode (loading : Bool) : PortWord → Except Reject Instr
  | .command w => if loading then decodeBeat w else decodeCommand w
  | .transport w => decodeTreq w
  | .status i => .ok (.sread i)

/-! ### Encoding -/

/-- Format CMD (R91): `{OP, ROW, COL, RED, GRN, BLU}`. A data beat (R92) is the same layout with the first three zero. -/
def encodeCmd (op : Byte) (row col : Half) (red grn blu : Byte) : CmdWord :=
  op ++ row ++ col ++ red ++ grn ++ blu

/-- Format TREQ (R94): `{TOP, OFFSET}`. -/
def encodeTreq (top : BitVec 2) (offset : Word) : ReqWord := top ++ offset

/-- The word of an instruction, on its port (R93, R94, R95, R102). -/
def encode : Instr → PortWord
  | .nop => .command (encodeCmd 0x00#8 0#16 0#16 0#8 0#8 0#8)
  | .wrpix row col red green blue => .command (encodeCmd 0x01#8 row col red green blue)
  | .clear => .command (encodeCmd 0x02#8 0#16 0#16 0#8 0#8 0#8)
  | .loadgrid => .command (encodeCmd 0x03#8 0#16 0#16 0#8 0#8 0#8)
  | .beat red green blue => .command (encodeCmd 0x00#8 0#16 0#16 red green blue)
  | .assemble => .command (encodeCmd 0x04#8 0#16 0#16 0#8 0#8 0#8)
  | .enc v => .command (encodeCmd 0x05#8 0#16 0#16 0#8 0#8 v)
  | .encpix red green blue => .command (encodeCmd 0x06#8 0#16 0#16 red green blue)
  | .physidx row col => .command (encodeCmd 0x07#8 row col 0#8 0#8 0#8)
  | .txAcquire => .transport (encodeTreq 1#2 0#32)
  | .txRead offset => .transport (encodeTreq 2#2 offset)
  | .txRelease => .transport (encodeTreq 3#2 0#32)
  | .sread idx => .status idx

/-- What FCMD records of a port's word (R32, R104): the whole command-port word, or `zext_64(TREQ)`. A status read
raises no fault, so its line is never recorded. -/
def PortWord.recorded : PortWord → CmdWord
  | .command w => w
  | .transport w => w.setWidth 64
  | .status i => i.setWidth 64

/-- The data beat is the one instruction decoded while LDREM > 0 (R100). -/
def Instr.isBeat : Instr → Bool
  | .beat _ _ _ => true
  | _ => false

/-! ### The opcode table, as R93 and R94 print it -/

/-- A row of R93: the words w with `w AND mask = pattern`. -/
structure CmdRow where
  mnemonic : String
  pattern  : CmdWord
  mask     : CmdWord
deriving DecidableEq, Repr

/-- R93's rows. -/
def commandTable : List CmdRow :=
  [⟨"NOP",      0x0000000000000000#64, 0xFFFFFFFFFFFFFFFF#64⟩,
   ⟨"WRPIX",    0x0100000000000000#64, 0xFF00000000000000#64⟩,
   ⟨"CLEAR",    0x0200000000000000#64, 0xFFFFFFFFFFFFFFFF#64⟩,
   ⟨"LOADGRID", 0x0300000000000000#64, 0xFFFFFFFFFFFFFFFF#64⟩,
   ⟨"ASSEMBLE", 0x0400000000000000#64, 0xFFFFFFFFFFFFFFFF#64⟩,
   ⟨"ENC",      0x0500000000000000#64, 0xFFFFFFFFFFFFFF00#64⟩,
   ⟨"ENCPIX",   0x0600000000000000#64, 0xFFFFFFFFFF000000#64⟩,
   ⟨"PHYSIDX",  0x0700000000000000#64, 0xFF00000000FFFFFF#64⟩]

/-- The word belongs to the row. -/
def CmdRow.selects (r : CmdRow) (w : CmdWord) : Bool := w &&& r.mask == r.pattern

/-- A row of R94's table. -/
structure ReqRow where
  mnemonic : String
  pattern  : ReqWord
  mask     : ReqWord
deriving DecidableEq, Repr

/-- R94's rows. -/
def requestTable : List ReqRow :=
  [⟨"TX_ACQUIRE", 0x100000000#34, 0x3FFFFFFFF#34⟩,
   ⟨"TX_READ",    0x200000000#34, 0x300000000#34⟩,
   ⟨"TX_RELEASE", 0x300000000#34, 0x3FFFFFFFF#34⟩]

/-- The request belongs to the row. -/
def ReqRow.selects (r : ReqRow) (w : ReqWord) : Bool := w &&& r.mask == r.pattern

/-- The mnemonic of an instruction, as opcode_table.json spells it. -/
def Instr.mnemonic : Instr → String
  | .nop => "NOP"
  | .wrpix _ _ _ _ _ => "WRPIX"
  | .clear => "CLEAR"
  | .loadgrid => "LOADGRID"
  | .beat _ _ _ => "BEAT"
  | .assemble => "ASSEMBLE"
  | .enc _ => "ENC"
  | .encpix _ _ _ => "ENCPIX"
  | .physidx _ _ => "PHYSIDX"
  | .txAcquire => "TX_ACQUIRE"
  | .txRead _ => "TX_READ"
  | .txRelease => "TX_RELEASE"
  | .sread _ => "SREAD"

/-! ### The table's words -/

/-- The port word that a table row of `nbits` bits (in whole bytes: 64, 40 or 8) stands for. The widths of the three
ports differ, so the row's length says the port; none where the number does not fit the port. -/
def tablePortWord (nbits w : Nat) : Option PortWord :=
  if nbits ≤ 8 then if w < 2 ^ 4 then some (.status (BitVec.ofNat 4 w)) else none
  else if nbits ≤ 40 then if w < 2 ^ 34 then some (.transport (BitVec.ofNat 34 w)) else none
  else if w < 2 ^ 64 then some (.command (BitVec.ofNat 64 w)) else none

/-- Whether a table word is read while LDREM > 0: it is no command word and is a data beat. The two readings share one
word only, all zeros, and that one is NOP here, as it is right after reset (R98). Log entry 9. -/
def tableWordIsBeat : PortWord → Bool
  | .command w => !(decodeCommand w).isOk && (decodeBeat w).isOk
  | _ => false

/-- The instruction the decoder reads from a word of the opcode table. -/
def decodeTableWord (nbits w : Nat) : Option Instr :=
  match tablePortWord nbits w with
  | none => none
  | some pw => (decode (tableWordIsBeat pw) pw).toOption

end Sys2Proof
end

