-- ==== Sys2Proof/Config.lean ====
section
/-! DEFINITION. The build configuration of the block (R6, R7, R8, R21) and the free values the spec leaves open. -/

namespace Sys2Proof

/-- R7: the four pulse codes are pairwise distinct (a) and none of them is 0x00 (b). -/
def PulseCode.legal (p0 p1 p2 p3 : Byte) : Bool :=
  p0 != p1 && p0 != p2 && p0 != p3 && p1 != p2 && p1 != p3 && p2 != p3
    && p0 != 0#8 && p1 != 0#8 && p2 != 0#8 && p3 != 0#8

/-- The pulse-code table P[0..3] (R6, R7), which carries its own legality: a table that breaks R7 has no block.
The four default bytes only make the type inhabited, so that `Config.pulseCode` can be declared without a body;
no definition of the model uses them. -/
structure PulseCode where
  p0 : Byte := 0x01#8
  p1 : Byte := 0x02#8
  p2 : Byte := 0x03#8
  p3 : Byte := 0x04#8
  ok : PulseCode.legal p0 p1 p2 p3 = true := by decide
deriving DecidableEq, Repr, Inhabited

/-- R6, R8: 1 <= W, H <= 65535 and FRAME_LEN = 12*W*H + R <= 2^32. -/
def Build.legal (width height padLen : Nat) : Bool :=
  decide (1 ≤ width) && decide (width ≤ 65535) && decide (1 ≤ height) && decide (height ≤ 65535)
    && decide (12 * (width * height) + padLen ≤ 4294967296)

/-- One build of the block (R6): W, H, R and P[0..3]. It carries its own legality (R6, R8): the model has no block
for a configuration that the spec refuses. `Build.make?` of WellFormed.lean is the check on raw numbers. -/
structure Build where
  width  : Nat
  height : Nat
  padLen : Nat
  pulse  : PulseCode
  ok     : Build.legal width height padLen = true
deriving DecidableEq, Repr

/-- N = W*H, the cell count (R6). -/
def Build.cells (b : Build) : Nat := b.width * b.height

/-- ACTIVE_LEN = 12*N (R6). -/
def Build.activeLen (b : Build) : Nat := 12 * b.cells

/-- FRAME_LEN = 12*N + R (R6). -/
def Build.frameLen (b : Build) : Nat := b.activeLen + b.padLen

/-- FREE VALUE. The pulse-code table of the block that `State.reset` stands for (U1, D3: the source gives no bytes).
Nothing is known of it but R7. Log entry 2. -/
opaque Config.pulseCode : PulseCode

/-- FREE VALUE. The n-th byte drawn where a TX_READ returns any 8-bit value (R206, R276, S1, S3). Log entry 3. -/
opaque Config.freeByte : Nat → Byte

/-- The reference configuration (R6): W = H = 16, R = 280, with the open table. Log entry 1. -/
def Build.reference : Build := ⟨16, 16, 280, Config.pulseCode, by decide⟩

end Sys2Proof
end

