-- ==== Sys2Proof/Machine/State.lean ====
section
/-! DEFINITION. The state of the block (R20 to R36), the words its ports hold, the outcomes' reasons, and reset (R270). -/

namespace Sys2Proof.Machine

/-- The frame space's active region (R27, R62): its written bytes by offset, offsets strictly rising. An unlisted
offset has no value: nothing has been assembled there since reset. -/
abbrev Memory := List Host.Cell

/-- The fault causes, exactly the seven codes of R230 (S6). -/
inductive Cause where
  /-- 0x00: no fault since reset. -/
  | none
  /-- 0x01: a word that decodes to no instruction. -/
  | illegal
  /-- 0x02: row >= H or col >= W. -/
  | range
  /-- 0x03: ASSEMBLE while some cell has DEF = 0. -/
  | undefPixel
  /-- 0x04: ASSEMBLE while TXH = 1. -/
  | txBusy
  /-- 0x05: TX_ACQUIRE while TXH = 1, TX_READ or TX_RELEASE while TXH = 0. -/
  | txProtocol
  /-- 0x06: TX_READ at an offset >= FRAME_LEN. -/
  | txRange
deriving DecidableEq, Repr

/-- One entry of the total order of steps (R70): which port the block serves next, or the reset input (R270). -/
inductive Turn where
  /-- The next word HOST offers on the command port. -/
  | command
  /-- The next request TRANSPORT offers. -/
  | transport
  /-- The next status read of any agent. -/
  | status
  /-- Reset is asserted. -/
  | reset
deriving DecidableEq, Repr

/-- The machine: the block's state (R36), the configuration it was built with, and what its ports hold. -/
structure State where
  /-- The build configuration (R6, R21): constants, read as CFG_DIM, CFG_PAD and CFG_PCODE (R33). -/
  build : Build
  /-- GRID[0 .. N-1], by logical index (R24). -/
  grid : List Pixel
  /-- DEF[0 .. N-1] (R25). -/
  defd : List Bool
  /-- FA, the active region of the frame (R27). The padding has no storage (R28). -/
  fa : Memory
  /-- RES0 (R22). -/
  res0 : Word
  /-- RES1 (R22). -/
  res1 : Word
  /-- RES2 (R22). -/
  res2 : Word
  /-- STATUS.FV (R31). -/
  fv : Bool
  /-- TXH, the transport hold (R29). -/
  txh : Bool
  /-- STATUS.HALT (R31, R232). -/
  halt : Bool
  /-- LDREM, 0 .. N (R30). STATUS.LD mirrors LDREM != 0 (R31). -/
  ldrem : Nat
  /-- FCAUSE[7:0] (R32). -/
  fcause : Cause
  /-- FCMD (R32): read as FCMD_HI and FCMD_LO. -/
  fcmd : CmdWord
  /-- A reset came while TXH = 1, and TRANSPORT has not acquired since (R276). -/
  resetInHold : Bool
  /-- The model's own: how many free bytes have been drawn. Log entry 3. -/
  draws : Nat
  /-- The model's own: the words HOST has yet to have accepted, in the order it sends them (R70). Log entry 4. -/
  hostQ : List CmdWord
  /-- The model's own: the requests TRANSPORT has yet to have performed, in its order (R70). Log entry 4. -/
  txQ : List ReqWord
  /-- The model's own: the status reads yet to be performed. Log entry 4. -/
  statusQ : List StatusIdx
  /-- The model's own: the interleaving (R70, S4): whose turn comes next, and when reset is asserted. Log entry 4. -/
  turns : List Turn
  /-- The model's own: the bytes returned on the transport port (R206), oldest first. Log entry 5. -/
  txReplies : List Byte
  /-- The model's own: the values returned on the status port (R200), oldest first. Log entry 5. -/
  statusReplies : List Word
deriving DecidableEq, Repr

/-- No step of this block stops with a fault: every fault of R230 is RECORDED (R232), which is a next state. There is
no other: the spec leaves no transaction without an effect. So the type has no constructor. -/
inductive Fault where
deriving DecidableEq, Repr

/-- The reasons to give an instruction no meaning. -/
inductive Refusal where
  /-- Raised by an arm of `exec` whose instruction has no meaning yet; no arm raises it. Safe: nothing can be proved
  of the instruction. -/
  | notModelled (mnemonic : String)
deriving DecidableEq, Repr

/-- The block of build `b` right after reset (R270), with nothing offered on any port. GRID's values are unspecified and
unobservable while DEF = 0 (R26): they are held as black here (log entry 6). FA has no values (R27). -/
def State.resetOf (b : Build) : State where
  build := b
  grid := List.replicate b.cells Pixel.black
  defd := List.replicate b.cells false
  fa := []
  res0 := 0#32
  res1 := 0#32
  res2 := 0#32
  fv := false
  txh := false
  halt := false
  ldrem := 0
  fcause := .none
  fcmd := 0#64
  resetInHold := false
  draws := 0
  hostQ := []
  txQ := []
  statusQ := []
  turns := []
  txReplies := []
  statusReplies := []

/-- The block of the reference configuration (R6) right after reset. -/
def State.reset : State := State.resetOf Build.reference

end Sys2Proof.Machine
end

