-- ==== Sys2Proof/Machine/Ops.lean ====
section
/-! DEFINITION. The shared operations: the frame's bytes (R11, R64), grid writes (R10), free draws, replies, fault entry
(R232) and reset, the one way back from it (R235, R270). -/

namespace Sys2Proof.Machine

/-! ### The active region as memory -/

/-- The byte at offset `a`, none where nothing was written. -/
def Memory.read : Memory → Nat → Option Byte
  | [], _ => none
  | (b, x) :: m, a => if b = a then some x else Memory.read m a

/-- The memory with byte `v` at offset `a`, its offsets still strictly rising. -/
def Memory.write : Memory → Nat → Byte → Memory
  | [], a, v => [(a, v)]
  | (b, x) :: m, a, v =>
    if a < b then (a, v) :: (b, x) :: m
    else if a = b then (a, v) :: m
    else (b, x) :: Memory.write m a v

/-- The canonical form: offsets strictly rising. (An unlisted offset has no value, so no entry can equal it.) -/
def Memory.wf : Memory → Bool
  | [] => true
  | [_] => true
  | (a, _) :: (b, x) :: m => decide (a < b) && Memory.wf ((b, x) :: m)

/-- R11 `MemWrite(o, n, v)`: byte `v[8(n-1-k)+7 : 8(n-1-k)]` goes to `FA[o+k]`, for k = 0 .. n-1. -/
def memWrite (m : Memory) (o n : Nat) (v : BitVec (8 * n)) : Memory :=
  (List.range n).foldl (fun m k => m.write (o + k) (v.extractLsb' (8 * (n - 1 - k)) 8)) m

/-- R64: the frame's byte at offset `o`: FA below 12N, the hardwired 0x00 of the padding (R28) up to FRAME_LEN. None
where no such byte exists, and where FA holds no value. -/
def State.frameByte (s : State) (o : Nat) : Option Byte :=
  if o < s.build.activeLen then s.fa.read o
  else if o < s.build.frameLen then some 0x00#8
  else none

/-- R11 `MemRead(o, n)`: the n bytes from offset `o`, the first in the most significant byte. None where one of them
does not exist or holds no value. -/
def State.memRead (s : State) (o n : Nat) : Option (BitVec (8 * n)) :=
  ((List.range n).mapM fun k => s.frameByte (o + k)).map fun bytes =>
    BitVec.ofNat (8 * n) (bytes.foldl (fun acc b => acc * 256 + b.toNat) 0)

/-! ### Grid cells -/

/-- GRID[k] (R10). -/
def State.cell (s : State) (k : Nat) : Pixel := s.grid.getD k Pixel.black

/-- DEF[k] (R10). -/
def State.defBit (s : State) (k : Nat) : Bool := s.defd.getD k false

/-- `GRID[k] <- px; DEF[k] <- 1` (R180, R186). -/
def State.writeCell (s : State) (k : Nat) (px : Pixel) : State :=
  { s with grid := s.grid.set k px, defd := s.defd.set k true }

/-- Every cell has been written since reset: no k in 0 .. N-1 has DEF[k] = 0 (R160). -/
def State.populated (s : State) : Bool := (List.range s.build.cells).all s.defBit

/-! ### Answers to reads -/

/-- The transport port returns byte `b` (R206). -/
def State.replyTx (s : State) (b : Byte) : State := { s with txReplies := s.txReplies ++ [b] }

/-- The status port returns `v` (R200). -/
def State.replyStatus (s : State) (v : Word) : State := { s with statusReplies := s.statusReplies ++ [v] }

/-- The transport port returns any 8-bit value (R206, R276): the next free byte, drawn once (S1). -/
def State.replyTxFree (s : State) : State :=
  { s with txReplies := s.txReplies ++ [Config.freeByte s.draws], draws := s.draws + 1 }

/-! ### Fault entry and reset -/

/-- `raise Fault(cause, word)` (R232): the first fault since reset is recorded and halts the command port; a later one
changes nothing. -/
def raiseFault (cause : Cause) (word : CmdWord) (s : State) : State :=
  if s.halt then s else { s with fcause := cause, fcmd := word, halt := true }

/-- The word that FCMD records for instruction `i` (R32, R104). -/
def recordedWord (i : Instr) : CmdWord := (encode i).recorded

/-- Reset asserted (R270, R272): the block's state takes its reset values. The build is a constant. What the agents
still offer, the replies they have had and the free draws are not the block's. R276: a reset during a hold is
remembered until TRANSPORT's next TX_ACQUIRE. -/
def assertReset (s : State) : State :=
  { State.resetOf s.build with
    resetInHold := s.resetInHold || s.txh
    draws := s.draws
    hostQ := s.hostQ
    txQ := s.txQ
    statusQ := s.statusQ
    turns := s.turns
    txReplies := s.txReplies
    statusReplies := s.statusReplies }

end Sys2Proof.Machine
end

