-- ==== Sys2Proof/Machine/Operands.lean ====
section
/-! DEFINITION. Grid operands: the range check (R99) and the logical index (R24, R61). The fields themselves are cut out
of their words once, in Decode.lean (R96). -/

namespace Sys2Proof.Machine

/-- R99: `row < H` and `col < W`, the 16-bit fields taken as naturals. -/
def inRange (b : Build) (row col : Half) : Bool :=
  decide (row.toNat < b.height) && decide (col.toNat < b.width)

/-- `k = row*W + col` (R24). -/
def logicalIndex (b : Build) (row col : Nat) : Nat := row * b.width + col

/-- The cell the next data beat writes: `k = N - LDREM` (R186). -/
def State.beatIndex (s : State) : Nat := s.build.cells - s.ldrem

/-- Every (row, col) of the grid, in the order of R160's two loops. -/
def gridCoords (b : Build) : List (Nat × Nat) :=
  (List.range b.height).flatMap fun row => (List.range b.width).map fun col => (row, col)

end Sys2Proof.Machine
end

