-- ==== Sys2Proof/Machine/Encoder.lean ====
section
/-! DEFINITION. The Pixel Timing Encoder (R120 to R126) and its commands ENC and ENCPIX. -/

namespace Sys2Proof

/-- P[g], the pulse code of a 2-bit group (R6). -/
def PulseCode.lookup (p : PulseCode) (g : BitVec 2) : Byte :=
  match g.toNat with
  | 0 => p.p0
  | 1 => p.p1
  | 2 => p.p2
  | _ => p.p3

/-- `dec(b)`: the g with P[g] = b (R123c), none for a byte outside the code set. -/
def PulseCode.dec (p : PulseCode) (b : Byte) : Option (BitVec 2) :=
  if b = p.p0 then some 0#2
  else if b = p.p1 then some 1#2
  else if b = p.p2 then some 2#2
  else if b = p.p3 then some 3#2
  else none

namespace Machine

/-- The i-th 2-bit group of a channel, by shift and mask: `(v >> (2*i)) & 2'b11` (R120). -/
def channelGroup (v : Byte) (i : Nat) : BitVec 2 := ((v >>> (2 * i)) &&& 3#8).setWidth 2

/-- The channel encoder (R120): groups 3 down to 0, the first emitted byte in bits [31:24]. -/
def encChannel (p : PulseCode) (v : Byte) : Word :=
  p.lookup (channelGroup v 3) ++ p.lookup (channelGroup v 2)
    ++ p.lookup (channelGroup v 1) ++ p.lookup (channelGroup v 0)

/-- The pixel encoder (R121): green, then red, then blue. -/
def encPixel (p : PulseCode) (px : Pixel) : BitVec 96 :=
  encChannel p px.green ++ encChannel p px.red ++ encChannel p px.blue

/-- ENC (R122). -/
def execEnc (v : Byte) (s : State) : Host.Outcome State Fault Refusal :=
  .next { s with res0 := encChannel s.build.pulse v }

/-- ENCPIX (R124). -/
def execEncpix (red green blue : Byte) (s : State) : Host.Outcome State Fault Refusal :=
  .next { s with
    res0 := encChannel s.build.pulse green
    res1 := encChannel s.build.pulse red
    res2 := encChannel s.build.pulse blue }

end Machine
end Sys2Proof
end

