-- ==== Sys2Proof/Machine/Mapper.lean ====
section
/-! DEFINITION. The Serpentine Address Mapper (R140 to R143, R76) and its command PHYSIDX. -/

namespace Sys2Proof.Machine

/-- R140: odd rows run forward, even rows (row 0 included) reversed. It means something for `row < H` and `col < W`. -/
def phys (b : Build) (row col : Nat) : Nat :=
  if row % 2 = 1 then row * b.width + col else row * b.width + (b.width - 1 - col)

/-- The cell at a physical index (R141d). -/
def physInv (b : Build) (p : Nat) : Nat × Nat :=
  let row := p / b.width
  let c := p % b.width
  (row, if row % 2 = 1 then c else b.width - 1 - c)

/-- PHYSIDX (R143). -/
def execPhysidx (row col : Half) (s : State) : Host.Outcome State Fault Refusal :=
  if inRange s.build row col then
    let p := phys s.build row.toNat col.toNat
    .next { s with res0 := BitVec.ofNat 32 p, res1 := BitVec.ofNat 32 (12 * p) }
  else .next (raiseFault .range (recordedWord (.physidx row col)) s)

end Sys2Proof.Machine
end

