-- ==== Sys2Proof/Machine/Assembler.lean ====
section
/-! DEFINITION. The Transmit Frame Assembler (R160 to R164) and its command ASSEMBLE. -/

namespace Sys2Proof.Machine

/-- The body of R160's loops: `MemWrite(12*p, 12, encpix(c))` for the cell at (row, col). -/
def assembleCell (s : State) (m : Memory) (rc : Nat × Nat) : Memory :=
  memWrite m (12 * phys s.build rc.1 rc.2) 12
    (encPixel s.build.pulse (s.cell (logicalIndex s.build rc.1 rc.2)))

/-- R160's two loops over the grid. -/
def assembleFrame (s : State) : Memory := (gridCoords s.build).foldl (assembleCell s) s.fa

/-- ASSEMBLE (R160): the hold is checked before the grid (R231). -/
def execAssemble (s : State) : Host.Outcome State Fault Refusal :=
  if s.txh then .next (raiseFault .txBusy (recordedWord .assemble) s)
  else if s.populated then .next { s with fa := assembleFrame s, fv := true }
  else .next (raiseFault .undefPixel (recordedWord .assemble) s)

end Sys2Proof.Machine
end

