-- ==== Sys2Proof/Machine/GridBuffer.lean ====
section
/-! DEFINITION. The RGB Frame Buffer's commands (R180 to R188): WRPIX, CLEAR, LOADGRID and the data beat. -/

namespace Sys2Proof.Machine

/-- WRPIX (R180). -/
def execWrpix (row col : Half) (red green blue : Byte) (s : State) : Host.Outcome State Fault Refusal :=
  if inRange s.build row col then
    .next (s.writeCell (logicalIndex s.build row.toNat col.toNat) ⟨red, green, blue⟩)
  else .next (raiseFault .range (recordedWord (.wrpix row col red green blue)) s)

/-- CLEAR (R182). -/
def execClear (s : State) : Host.Outcome State Fault Refusal :=
  .next { s with
    grid := List.replicate s.build.cells Pixel.black
    defd := List.replicate s.build.cells true }

/-- LOADGRID (R184). -/
def execLoadgrid (s : State) : Host.Outcome State Fault Refusal :=
  .next { s with ldrem := s.build.cells }

/-- The data beat (R186). R92 makes a beat legal only while LDREM > 0; the port decodes none otherwise (R100), and
asked for one the block reports ILLEGAL (log entry 8). -/
def execBeat (red green blue : Byte) (s : State) : Host.Outcome State Fault Refusal :=
  if s.ldrem = 0 then .next (raiseFault .illegal (recordedWord (.beat red green blue)) s)
  else .next { s.writeCell s.beatIndex ⟨red, green, blue⟩ with ldrem := s.ldrem - 1 }

end Sys2Proof.Machine
end

