-- ==== Sys2Proof/Machine/Flags.lean ====
section
/-! DEFINITION. The status flags (R31, R35) and the fault cause codes (R230). There are no condition codes. -/

namespace Sys2Proof.Machine

/-- STATUS.LD: LDREM != 0 (R31). -/
def State.ld (s : State) : Bool := decide (s.ldrem ≠ 0)

/-- STATUS = `{28'b0, LD, HALT, TXH, FV}` (R200). -/
def State.statusWord (s : State) : Word :=
  0#28 ++ BitVec.ofBool s.ld ++ BitVec.ofBool s.halt ++ BitVec.ofBool s.txh ++ BitVec.ofBool s.fv

/-- FCAUSE[7:0] of each cause (R230). -/
def Cause.code : Cause → Byte
  | .none => 0x00#8
  | .illegal => 0x01#8
  | .range => 0x02#8
  | .undefPixel => 0x03#8
  | .txBusy => 0x04#8
  | .txProtocol => 0x05#8
  | .txRange => 0x06#8

end Sys2Proof.Machine
end

