-- ==== Sys2Proof/Machine/StatusPort.lean ====
section
/-! DEFINITION. The status port (R200) with its register map (R31 to R34), and NOP (R210). -/

namespace Sys2Proof.Machine

/-- CFG_DIM = `{W[15:0], H[15:0]}` (R33). -/
def cfgDim (b : Build) : Word := BitVec.ofNat 16 b.width ++ BitVec.ofNat 16 b.height

/-- CFG_PAD = R (R33). -/
def cfgPad (b : Build) : Word := BitVec.ofNat 32 b.padLen

/-- CFG_PCODE = `{P[3], P[2], P[1], P[0]}` (R33). -/
def cfgPcode (b : Build) : Word := b.pulse.p3 ++ b.pulse.p2 ++ b.pulse.p1 ++ b.pulse.p0

/-- `STATUSREG(i)` (R34, R200). -/
def State.statusReg (s : State) (i : StatusIdx) : Word :=
  match i.toNat with
  | 0 => s.statusWord
  | 1 => s.fcause.code.setWidth 32
  | 2 => s.fcmd.extractLsb' 32 32
  | 3 => s.fcmd.extractLsb' 0 32
  | 4 => s.res0
  | 5 => s.res1
  | 6 => s.res2
  | 7 => cfgDim s.build
  | 8 => cfgPad s.build
  | 9 => cfgPcode s.build
  | 10 => BitVec.ofNat 32 s.ldrem
  | _ => 0#32

/-- SREAD (R200). -/
def execSread (idx : StatusIdx) (s : State) : Host.Outcome State Fault Refusal :=
  .next (s.replyStatus (s.statusReg idx))

/-- NOP (R210). -/
def execNop (s : State) : Host.Outcome State Fault Refusal := .next s

end Sys2Proof.Machine
end

