-- ==== Sys2Proof/Machine/TransportPort.lean ====
section
/-! DEFINITION. The transport port (R204, R206, R208, R212): TX_ACQUIRE, TX_READ and TX_RELEASE. A nonzero OFFSET of
TX_ACQUIRE and TX_RELEASE is refused by the decoder (R94), and Ports.lean raises ILLEGAL for it. -/

namespace Sys2Proof.Machine

/-- TX_ACQUIRE (R204). It ends the memory of a reset during a hold (R276). -/
def execTxAcquire (s : State) : Host.Outcome State Fault Refusal :=
  if s.txh then .next (raiseFault .txProtocol (recordedWord .txAcquire) s)
  else .next { s with txh := true, resetInHold := false }

/-- What a TX_READ answers inside the frame (R206): any value for the active region while FV = 0, else the frame's byte.
(FV = 1 with a byte of FA that holds no value is no reachable state; it draws too.) -/
def answerRead (o : Nat) (s : State) : State :=
  if o < s.build.activeLen && !s.fv then s.replyTxFree
  else match s.frameByte o with
    | some b => s.replyTx b
    | none => s.replyTxFree

/-- TX_READ outside a hold (R206): the byte returned is 0x00, or any value after a reset during a hold (R276). -/
def answerUnheld (s : State) : State :=
  if s.resetInHold then s.replyTxFree else s.replyTx 0x00#8

/-- TX_READ (R206): the hold is checked before the offset (R231). -/
def execTxRead (offset : Word) (s : State) : Host.Outcome State Fault Refusal :=
  if !s.txh then .next (answerUnheld (raiseFault .txProtocol (recordedWord (.txRead offset)) s))
  else if s.build.frameLen ≤ offset.toNat then
    .next ((raiseFault .txRange (recordedWord (.txRead offset)) s).replyTx 0x00#8)
  else .next (answerRead offset.toNat s)

/-- TX_RELEASE (R208). -/
def execTxRelease (s : State) : Host.Outcome State Fault Refusal :=
  if s.txh then .next { s with txh := false }
  else .next (raiseFault .txProtocol (recordedWord .txRelease) s)

end Sys2Proof.Machine
end

