-- ==== Sys2Proof/Machine/Dispatch.lean ====
section
/-! DEFINITION. The dispatch: one arm per instruction, each a call of its meaning. -/

namespace Sys2Proof.Machine

def exec (i : Instr) (s : State) : Host.Outcome State Fault Refusal :=
  match i with
  | .nop => Sys2Proof.Machine.execNop s
  | .wrpix row col red green blue => Sys2Proof.Machine.execWrpix row col red green blue s
  | .clear => Sys2Proof.Machine.execClear s
  | .loadgrid => Sys2Proof.Machine.execLoadgrid s
  | .beat red green blue => Sys2Proof.Machine.execBeat red green blue s
  | .assemble => Sys2Proof.Machine.execAssemble s
  | .enc v => Sys2Proof.Machine.execEnc v s
  | .encpix red green blue => Sys2Proof.Machine.execEncpix red green blue s
  | .physidx row col => Sys2Proof.Machine.execPhysidx row col s
  | .txAcquire => Sys2Proof.Machine.execTxAcquire s
  | .txRead offset => Sys2Proof.Machine.execTxRead offset s
  | .txRelease => Sys2Proof.Machine.execTxRelease s
  | .sread idx => Sys2Proof.Machine.execSread idx s

end Sys2Proof.Machine
end

