-- ==== Sys2Proof/Machine/Ports.lean ====
section
/-! DEFINITION. Serving a port: how the block takes the next offered word, decodes it and performs it (R70, R94, R97,
R100, R101, R234), and how a word is placed so that it is the next one taken. -/

namespace Sys2Proof.Machine

/-- One transaction: the word is decoded and its instruction performed; a word that decodes to none raises ILLEGAL
(R97, R94), and the idle TREQ is no transaction (R94). -/
def perform (pw : PortWord) (s : State) : Host.Outcome State Fault Refusal :=
  match decode s.ld pw with
  | .ok i => exec i s
  | .error .idle => .next s
  | .error _ => .next (raiseFault .illegal pw.recorded s)

/-- The command port (R100): while HALT = 1 nothing is accepted and HOST's word keeps waiting (R234). -/
def serveCommand (s : State) : Host.Outcome State Fault Refusal :=
  if s.halt then .next s
  else match s.hostQ with
    | [] => .next s
    | w :: rest => perform (.command w) { s with hostQ := rest }

/-- The transport port, served in every state (R101, R212). -/
def serveTransport (s : State) : Host.Outcome State Fault Refusal :=
  match s.txQ with
  | [] => .next s
  | w :: rest => perform (.transport w) { s with txQ := rest }

/-- The status port, served in every state (R101, R200). -/
def serveStatus (s : State) : Host.Outcome State Fault Refusal :=
  match s.statusQ with
  | [] => .next s
  | i :: rest => perform (.status i) { s with statusQ := rest }

/-- One turn of the total order (R70). A turn on a port where nothing is offered, or on the halted command port, leaves
the block as it is (R242, R234). -/
def serve (t : Turn) (s : State) : Host.Outcome State Fault Refusal :=
  match t with
  | .command => serveCommand s
  | .transport => serveTransport s
  | .status => serveStatus s
  | .reset => .next (assertReset s)

/-- The next turn, if there is one; with none the block is idle and keeps all its state (R242). -/
def takeTurn (s : State) : Host.Outcome State Fault Refusal :=
  match s.turns with
  | [] => .next s
  | t :: rest => serve t { s with turns := rest }

/-- `pw` offered first on its port and its port's turn first of all. On the command port, HALT is cleared and LDREM is
put where the word's reading needs it: LDREM > 0 for a data beat, LDREM = 0 for a command word (R100; log entry 9). -/
def placeFirst (pw : PortWord) (s : State) : State :=
  match pw with
  | .command w =>
    { s with
      hostQ := w :: s.hostQ
      turns := .command :: s.turns
      halt := false
      ldrem := if tableWordIsBeat pw then (if s.ldrem = 0 then s.build.cells else s.ldrem) else 0 }
  | .transport w => { s with txQ := w :: s.txQ, turns := .transport :: s.turns }
  | .status i => { s with statusQ := i :: s.statusQ, turns := .status :: s.turns }

/-- `placeFirst` for a word of the opcode table; a number that fits no port places nothing. -/
def placeTableWord (s : State) (nbits w : Nat) : State :=
  match tablePortWord nbits w with
  | none => s
  | some pw => placeFirst pw s

end Sys2Proof.Machine
end

