-- ==== Sys2Proof/WellFormed.lean ====
section
/-! DEFINITION. The checks on raw data: a configuration (R6, R7, R8) and an assembly statement (R102, R103).
An `Instr` needs none: its operands have exactly the width of their fields. -/

namespace Sys2Proof

/-- The build with these parameters, or none where the spec refuses the configuration: a dimension of 0 or above 65535,
a frame longer than 2^32 bytes (R6, R8), a pulse-code table with two equal codes or a zero code (R7). -/
def Build.make? (width height padLen : Nat) (p0 p1 p2 p3 : Byte) : Option Build :=
  if hp : PulseCode.legal p0 p1 p2 p3 = true then
    if hb : Build.legal width height padLen = true then
      some ⟨width, height, padLen, ⟨p0, p1, p2, p3, hp⟩, hb⟩
    else none
  else none

/-- A number that fits a field of `width` bits. -/
def fits (width n : Nat) : Bool := decide (n < 2 ^ width)

/-- R102: row or col > 65535, a channel > 0xFF, o >= 2^32 or i > 15 is an assembly error. R103: a LOADGRID list has
exactly N colours. -/
def Asm.wellFormed (b : Build) : Asm → Bool
  | .nop => true
  | .wrpix row col rgb => fits 16 row && fits 16 col && fits 24 rgb
  | .clear => true
  | .loadgrid => true
  | .beat rgb => fits 24 rgb
  | .assemble => true
  | .enc v => fits 8 v
  | .encpix rgb => fits 24 rgb
  | .physidx row col => fits 16 row && fits 16 col
  | .txAcquire => true
  | .txRead offset => fits 32 offset
  | .txRelease => true
  | .sread idx => fits 4 idx
  | .loadgridList colours => decide (colours.length = b.cells) && colours.all (fits 24)
  | .fill rgb => fits 24 rgb
  | .txFrame => true

end Sys2Proof
end

