-- ==== Sys2Proof/Machine/Assembly.lean ====
section
/-! DEFINITION. The assembler of R102 and R103: a line of text to a statement, a statement to the words its agent sends. -/

namespace Sys2Proof

/-! ### Statements to words -/

/-- The channels of a colour written 0xRRGGBB (R91 DATA24, R102). -/
def Pixel.ofRgb (rgb : Nat) : Pixel :=
  ⟨BitVec.ofNat 8 (rgb / 65536), BitVec.ofNat 8 (rgb / 256), BitVec.ofNat 8 rgb⟩

/-- `.BEAT 0xRRGGBB`. -/
def beatOfRgb (rgb : Nat) : Instr :=
  .beat (Pixel.ofRgb rgb).red (Pixel.ofRgb rgb).green (Pixel.ofRgb rgb).blue

/-- The instructions of a statement whose operands fit (R102), a pseudo-instruction expanded (R103). -/
def Asm.instrs (b : Build) : Asm → List Instr
  | .nop => [.nop]
  | .wrpix row col rgb =>
    [.wrpix (BitVec.ofNat 16 row) (BitVec.ofNat 16 col)
      (Pixel.ofRgb rgb).red (Pixel.ofRgb rgb).green (Pixel.ofRgb rgb).blue]
  | .clear => [.clear]
  | .loadgrid => [.loadgrid]
  | .beat rgb => [beatOfRgb rgb]
  | .assemble => [.assemble]
  | .enc v => [.enc (BitVec.ofNat 8 v)]
  | .encpix rgb => [.encpix (Pixel.ofRgb rgb).red (Pixel.ofRgb rgb).green (Pixel.ofRgb rgb).blue]
  | .physidx row col => [.physidx (BitVec.ofNat 16 row) (BitVec.ofNat 16 col)]
  | .txAcquire => [.txAcquire]
  | .txRead offset => [.txRead (BitVec.ofNat 32 offset)]
  | .txRelease => [.txRelease]
  | .sread idx => [.sread (BitVec.ofNat 4 idx)]
  | .loadgridList colours => .loadgrid :: colours.map beatOfRgb
  | .fill rgb => .loadgrid :: List.replicate b.cells (beatOfRgb rgb)
  | .txFrame =>
    .txAcquire :: (List.range b.frameLen).map (fun o => .txRead (BitVec.ofNat 32 o)) ++ [.txRelease]

/-- Why a line does not assemble. -/
inductive AsmError where
  /-- No mnemonic of R102 or R103. -/
  | unknownMnemonic
  /-- Not as many operands as the statement takes. -/
  | operandCount
  /-- An operand that is no decimal and no `0x` number, nor (for SREAD) a register's name. -/
  | badNumber
  /-- An operand that does not fit its field, or a LOADGRID list whose length is not N (R102, R103). -/
  | doesNotFit
deriving DecidableEq, Repr

/-- The words of a statement; an operand that does not fit is an error and is not truncated (R102). -/
def Asm.words (b : Build) (a : Asm) : Except AsmError (List PortWord) :=
  if a.wellFormed b then .ok ((a.instrs b).map encode) else .error .doesNotFit

/-! ### Text to statements -/

/-- The line before its comment (R102: `;` begins a comment). -/
def AsmText.code (line : List Char) : List Char := line.takeWhile (· != ';')

/-- The text without the blanks around it. -/
def AsmText.trim (t : List Char) : List Char :=
  ((t.dropWhile Char.isWhitespace).reverse.dropWhile Char.isWhitespace).reverse

/-- The parts between commas; no operands where the text is blank. -/
def AsmText.operands (t : List Char) : List (List Char) :=
  if AsmText.trim t = [] then []
  else ((t.foldr (fun c acc =>
    if c = ',' then [] :: acc else (c :: acc.headD []) :: acc.tail) [[]]).map AsmText.trim)

/-- A digit's value in hexadecimal. -/
def AsmText.digit (c : Char) : Option Nat :=
  if '0' ≤ c ∧ c ≤ '9' then some (c.toNat - '0'.toNat)
  else if 'a' ≤ c ∧ c ≤ 'f' then some (c.toNat - 'a'.toNat + 10)
  else if 'A' ≤ c ∧ c ≤ 'F' then some (c.toNat - 'A'.toNat + 10)
  else none

/-- Digits of a base, most significant first; none where a character is no digit of it. -/
def AsmText.digits (base : Nat) : Nat → List Char → Option Nat
  | acc, [] => some acc
  | acc, c :: cs =>
    match AsmText.digit c with
    | some d => if d < base then AsmText.digits base (acc * base + d) cs else none
    | none => none

/-- A number, decimal or `0x` hexadecimal (R102). -/
def AsmText.number : List Char → Except AsmError Nat
  | [] => .error .badNumber
  | '0' :: 'x' :: d :: ds =>
    match AsmText.digits 16 0 (d :: ds) with
    | some n => .ok n
    | none => .error .badNumber
  | c :: cs =>
    match AsmText.digits 10 0 (c :: cs) with
    | some n => .ok n
    | none => .error .badNumber

/-- The names of the status registers (R34), by index. -/
def statusNames : List String :=
  ["STATUS", "FCAUSE", "FCMD_HI", "FCMD_LO", "RES0", "RES1", "RES2", "CFG_DIM", "CFG_PAD", "CFG_PCODE", "LDREM"]

/-- A status register: a number, or a name of R34. -/
def AsmText.register (t : List Char) : Except AsmError Nat :=
  match statusNames.findIdx? (fun n => n.toList == t) with
  | some i => .ok i
  | none => AsmText.number t

/-- The statement of a mnemonic (in capitals) and its operands (R102, R103). -/
def AsmText.statement (mnemonic : String) (ops : List (List Char)) : Except AsmError Asm :=
  let none' (a : Asm) : Except AsmError Asm := match ops with
    | [] => .ok a
    | _ => .error .operandCount
  let one (read : List Char → Except AsmError Nat) (f : Nat → Asm) : Except AsmError Asm := match ops with
    | [x] => (read x).map f
    | _ => .error .operandCount
  if mnemonic = "NOP" then none' .nop
  else if mnemonic = "WRPIX" then match ops with
    | [r, c, x] => do return .wrpix (← AsmText.number r) (← AsmText.number c) (← AsmText.number x)
    | _ => .error .operandCount
  else if mnemonic = "CLEAR" then none' .clear
  else if mnemonic = "LOADGRID" then match ops with
    | [] => .ok .loadgrid
    | cs => (cs.mapM AsmText.number).map .loadgridList
  else if mnemonic = ".BEAT" then one AsmText.number .beat
  else if mnemonic = "ASSEMBLE" then none' .assemble
  else if mnemonic = "ENC" then one AsmText.number .enc
  else if mnemonic = "ENCPIX" then one AsmText.number .encpix
  else if mnemonic = "PHYSIDX" then match ops with
    | [r, c] => do return .physidx (← AsmText.number r) (← AsmText.number c)
    | _ => .error .operandCount
  else if mnemonic = "TX.ACQUIRE" then none' .txAcquire
  else if mnemonic = "TX.READ" then one AsmText.number .txRead
  else if mnemonic = "TX.RELEASE" then none' .txRelease
  else if mnemonic = "SREAD" then one AsmText.register .sread
  else if mnemonic = "FILL" then one AsmText.number .fill
  else if mnemonic = "TX.FRAME" then none' .txFrame
  else .error .unknownMnemonic

/-- One line of assembly text (R102): a statement, or none on a blank line. Mnemonics are case-insensitive. -/
def AsmText.line (text : String) : Except AsmError (Option Asm) :=
  let code := AsmText.trim (AsmText.code text.toList)
  if code = [] then .ok none
  else
    let isBlank := Char.isWhitespace
    let mnemonic := String.ofList ((code.takeWhile (!isBlank ·)).map Char.toUpper)
    (AsmText.statement mnemonic (AsmText.operands (code.dropWhile (!isBlank ·)))).map some

/-- The words of one line of assembly text. -/
def AsmText.assemble (b : Build) (text : String) : Except AsmError (List PortWord) :=
  match AsmText.line text with
  | .ok (some a) => a.words b
  | .ok none => .ok []
  | .error e => .error e

end Sys2Proof
end

