-- ==== Sys2Proof/Safety.lean ====
section
/-! DEFINITION. What a claim is stated in: the invariant of the block's state, the duties of the agents (R214), when a
transaction faults and with which cause (R230, R231), and what no port can observe (R26). -/

namespace Sys2Proof.Machine

/-- The invariant every step keeps: the arrays have N cells; FA is canonical, lies in the active region and holds whole
frames of pulse codes exactly when FV says so (R27, R31, R125); LDREM is at most N (R30); HALT and the recorded cause
agree (R31, R32); a reset during a hold is remembered only while the hold is off (R276). -/
structure BlockInv (s : State) : Prop where
  grid_length : s.grid.length = s.build.cells
  defd_length : s.defd.length = s.build.cells
  fa_wf : s.fa.wf = true
  fa_active : ∀ a, s.build.activeLen ≤ a → s.fa.read a = none
  fa_empty : s.fv = false → s.fa = []
  fa_codes : s.fv = true → ∀ a, a < s.build.activeLen → ∃ g, s.fa.read a = some (s.build.pulse.lookup g)
  ldrem_le : s.ldrem ≤ s.build.cells
  halt_cause : s.halt = true ↔ s.fcause ≠ Cause.none
  cause_none : s.fcause = Cause.none → s.fcmd = 0#64
  reset_in_hold : s.resetInHold = true → s.txh = false

/-- HOST's duty before ASSEMBLE (R214): every cell populated, and the frame not held. -/
def State.mayAssemble (s : State) : Bool := s.populated && !s.txh

/-- TRANSPORT's duty before TX_ACQUIRE (R214): a frame has been assembled, and the frame is not held already. -/
def State.mayAcquire (s : State) : Bool := s.fv && !s.txh

/-- The cause with which instruction `i` faults in state `s`, none where it does not (R230, in the order of R231). -/
def expectedCause (i : Instr) (s : State) : Cause :=
  match i with
  | .wrpix row col _ _ _ => if inRange s.build row col then .none else .range
  | .physidx row col => if inRange s.build row col then .none else .range
  | .assemble => if s.txh then .txBusy else if s.populated then .none else .undefPixel
  | .txAcquire => if s.txh then .txProtocol else .none
  | .txRead offset =>
    if !s.txh then .txProtocol else if s.build.frameLen ≤ offset.toNat then .txRange else .none
  | .txRelease => if s.txh then .none else .txProtocol
  | .beat _ _ _ => if s.ldrem = 0 then .illegal else .none
  | .nop | .clear | .loadgrid | .enc _ | .encpix _ _ _ | .sread _ => .none

/-- Two states that differ at most in cells never written since reset (R26). -/
structure SameButUnwritten (s t : State) : Prop where
  rest : { s with grid := t.grid } = t
  length : s.grid.length = t.grid.length
  cells : ∀ k, s.defBit k = true → s.cell k = t.cell k

/-- The outcomes are related: both next states, and those related. -/
def OutcomesRelated (R : State → State → Prop) (x y : Host.Outcome State Fault Refusal) : Prop :=
  ∃ s t, x = .next s ∧ y = .next t ∧ R s t

/-- The instructions performed one after another, each on the state the one before it left. -/
def execAll : List Instr → State → Host.Outcome State Fault Refusal
  | [], s => .next s
  | i :: is, s =>
    match exec i s with
    | .next t => execAll is t
    | .fault r => .fault r
    | .refused r => .refused r

/-- `n` steps, one after another, each on the state the one before it left. -/
def runSteps : Nat → State → Host.Outcome State Fault Refusal
  | 0, s => .next s
  | n + 1, s =>
    match step s with
    | .next t => runSteps n t
    | .fault r => .fault r
    | .refused r => .refused r

end Sys2Proof.Machine
end

