-- ==== Sys2Proof/Certificates/Slice0/Obligations.lean ====
section
/-! DEFINITION. The statements about the model, for the provers. Each docstring names the rules it formalises. -/

open Sys2Proof Sys2Proof.Machine

/-! ### Encoding -/

/-- Words written out from R91 to R95 (and 95_test_vectors.md) decode to the instructions they stand for. A table word
carries no LDREM, so in which phase a 64-bit word is read is the model's convention (log entry 9, DESIGN CHOICE): as a
command word where it is one, all zeros being NOP, and else as a data beat. The NOP and BEAT clauses rest on it: at
LDREM = 0 the word 0x10203 is ILLEGAL (R97). -/
def Obligations.SampleWordsDecode : Prop :=
  decodeTableWord 64 0x0000000000000000 = some .nop ∧
  decodeTableWord 64 0x0100010000FF0000 = some (.wrpix 1#16 0#16 0xFF#8 0x00#8 0x00#8) ∧
  decodeTableWord 64 0x0200000000000000 = some .clear ∧
  decodeTableWord 64 0x0300000000000000 = some .loadgrid ∧
  decodeTableWord 64 0x0000000000010203 = some (.beat 0x01#8 0x02#8 0x03#8) ∧
  decodeTableWord 64 0x0400000000000000 = some .assemble ∧
  decodeTableWord 64 0x050000000000001B = some (.enc 0x1B#8) ∧
  decodeTableWord 64 0x0600000000123456 = some (.encpix 0x12#8 0x34#8 0x56#8) ∧
  decodeTableWord 64 0x0700020003000000 = some (.physidx 2#16 3#16) ∧
  decodeTableWord 40 0x100000000 = some .txAcquire ∧
  decodeTableWord 40 0x200000D18 = some (.txRead 3352#32) ∧
  decodeTableWord 40 0x300000000 = some .txRelease ∧
  decodeTableWord 8 0x7 = some (.sread 7#4) ∧
  decodeTableWord 64 0x0800000000000000 = none ∧
  decodeTableWord 64 0x0400000000000001 = none ∧
  decodeTableWord 40 0x100000005 = none

/-- R91 to R95, R100, R101: an instruction's encoding decodes to it, every operand as it was, in the phase in which its
port takes it (LDREM > 0 for a data beat, LDREM = 0 for a command; any phase on the other two ports). -/
def Obligations.DecodeReadsBackEveryEncoding : Prop :=
  ∀ (i : Instr) (loading : Bool),
    (match encode i with
      | .command _ => loading = i.isBeat
      | .transport _ => True
      | .status _ => True) →
    decode loading (encode i) = .ok i

/-- R91 to R95, R97: a word that decodes is the encoding of what it decodes to, so no bit of it is ignored. -/
def Obligations.EveryDecodedWordIsAnEncoding : Prop :=
  ∀ (loading : Bool) (pw : PortWord) (i : Instr), decode loading pw = .ok i → encode i = pw

/-- R93: the mask/match pair of each row is the complete set of words that select it, and the data beat has match
0000000000000000 and mask FFFFFFFFFF000000. -/
def Obligations.CommandDecoderFollowsTheOpcodeTable : Prop :=
  (∀ (w : CmdWord) (r : CmdRow), r ∈ commandTable → r.selects w = true →
    ∃ i, decodeCommand w = .ok i ∧ i.mnemonic = r.mnemonic) ∧
  (∀ (w : CmdWord) (i : Instr), decodeCommand w = .ok i →
    ∃ r ∈ commandTable, r.selects w = true ∧ i.mnemonic = r.mnemonic) ∧
  (∀ (w : CmdWord), (∃ i, decodeBeat w = .ok i) ↔ w &&& 0xFFFFFFFFFF000000#64 = 0x0000000000000000#64)

/-- R94: the requests that select TX_ACQUIRE, TX_READ and TX_RELEASE are those of the table's mask/match pairs; a TREQ
with TOP = 2'b00 is no transaction, and one with TOP = 2'b01 or 2'b11 and OFFSET != 0 is malformed. -/
def Obligations.RequestDecoderFollowsTheRequestTable : Prop :=
  (∀ (w : ReqWord) (r : ReqRow), r ∈ requestTable → r.selects w = true →
    ∃ i, decodeTreq w = .ok i ∧ i.mnemonic = r.mnemonic) ∧
  (∀ (w : ReqWord) (i : Instr), decodeTreq w = .ok i →
    ∃ r ∈ requestTable, r.selects w = true ∧ i.mnemonic = r.mnemonic) ∧
  (∀ (w : ReqWord), decodeTreq w = .error .idle ↔ w.extractLsb' 32 2 = 0#2) ∧
  (∀ (w : ReqWord), decodeTreq w = .error .reservedOffset ↔
    (w.extractLsb' 32 2 = 1#2 ∨ w.extractLsb' 32 2 = 3#2) ∧ w.extractLsb' 0 32 ≠ 0#32)

/-- R98: the all-zero word is NOP while LDREM = 0, and a data beat that loads a black cell while LDREM > 0. -/
def Obligations.ZeroWordIsNopOrABlackBeat : Prop :=
  decode false (.command 0#64) = .ok .nop ∧ decode true (.command 0#64) = .ok (.beat 0#8 0#8 0#8)

/-! ### The ports -/

/-- R100: what becomes of the word HOST offers. While HALT = 1 it is not accepted; while LDREM > 0 it is a data beat;
else it is a command word, and a word that does not decode raises ILLEGAL. That the halted port's turn passes in a step
of its own is the model's choice (log entry 4, DESIGN CHOICE): R100 gives the port no step there. -/
def Obligations.CommandPortTakesTheNextWord : Prop :=
  ∀ (s : State) (w : CmdWord) (rest : List CmdWord) (ts : List Turn),
    s.turns = .command :: ts → s.hostQ = w :: rest →
    (s.halt = true → step s = .next { s with turns := ts }) ∧
    (s.halt = false → 0 < s.ldrem →
      (∀ i, decodeBeat w = .ok i → step s = exec i { s with turns := ts, hostQ := rest }) ∧
      (∀ r, decodeBeat w = .error r →
        step s = .next (raiseFault .illegal w { s with turns := ts, hostQ := rest }))) ∧
    (s.halt = false → s.ldrem = 0 →
      (∀ i, decodeCommand w = .ok i → step s = exec i { s with turns := ts, hostQ := rest }) ∧
      (∀ r, decodeCommand w = .error r →
        step s = .next (raiseFault .illegal w { s with turns := ts, hostQ := rest })))

/-- R94, R101: a transport request is decoded by R94 in every state, HALT and LDREM whatever they are; the idle request
is no transaction, and a malformed one raises ILLEGAL with the zero-extended request (R104). -/
def Obligations.TransportPortTakesTheNextRequest : Prop :=
  ∀ (s : State) (w : ReqWord) (rest : List ReqWord) (ts : List Turn),
    s.turns = .transport :: ts → s.txQ = w :: rest →
    (∀ i, decodeTreq w = .ok i → step s = exec i { s with turns := ts, txQ := rest }) ∧
    (decodeTreq w = .error .idle → step s = .next { s with turns := ts, txQ := rest }) ∧
    (decodeTreq w = .error .reservedOffset →
      step s = .next (raiseFault .illegal (w.setWidth 64) { s with turns := ts, txQ := rest }))

/-- R95, R101: a status read is performed in every state. -/
def Obligations.StatusPortTakesTheNextRead : Prop :=
  ∀ (s : State) (i : StatusIdx) (rest : List StatusIdx) (ts : List Turn),
    s.turns = .status :: ts → s.statusQ = i :: rest →
    step s = exec (.sread i) { s with turns := ts, statusQ := rest }

/-- R242: with no transaction offered the block keeps all its state. (A turn on a port where nothing is offered only
goes by: log entry 4.) -/
def Obligations.IdleBlockKeepsItsState : Prop :=
  (∀ s : State, s.turns = [] → step s = .next s) ∧
  (∀ (s : State) (ts : List Turn), s.turns = .command :: ts → s.hostQ = [] → step s = .next { s with turns := ts }) ∧
  (∀ (s : State) (ts : List Turn), s.turns = .transport :: ts → s.txQ = [] → step s = .next { s with turns := ts }) ∧
  (∀ (s : State) (ts : List Turn), s.turns = .status :: ts → s.statusQ = [] → step s = .next { s with turns := ts })

/-- R97: a command word of no row of R93, and a data beat with a nonzero bit in [63:24], raises ILLEGAL and has no
other effect. -/
def Obligations.IllegalWordOnlyRaisesIllegal : Prop :=
  ∀ (s : State) (w : CmdWord) (rest : List CmdWord) (ts : List Turn),
    s.turns = .command :: ts → s.hostQ = w :: rest → s.halt = false →
    ((s.ldrem = 0 ∧ ∀ r ∈ commandTable, r.selects w = false) ∨ (0 < s.ldrem ∧ w.extractLsb' 24 40 ≠ 0#40)) →
    step s = .next { s with turns := ts, hostQ := rest, halt := true, fcause := .illegal, fcmd := w }

/-- Log entry 9: a word of the opcode table, placed by `withFetchWord`, is the one the next step performs, on a state
that differs from the given one in HALT and LDREM at most. The model's own convention. -/
def Obligations.PlacedTableWordIsPerformedNext : Prop :=
  ∀ (s : State) (nbits w : Nat) (i : Instr), decodeTableWord nbits w = some i →
    ∃ t, step (s.withFetchWord nbits w) = exec i t ∧ { t with halt := s.halt, ldrem := s.ldrem } = s ∧
      (i.isBeat = true → 0 < t.ldrem)

/-- Log entry 14 (DEDUCED): no step stops the machine, because every fault of the block is recorded (R232). On the
halted command port, where R234 gives HOST no step, the model's turn passes (log entry 4, DESIGN CHOICE). -/
def Obligations.EveryStepAnswersANextState : Prop :=
  ∀ s : State, ∃ t, step s = .next t

/-! ### Faults -/

/-- R232: the first fault is recorded in FCAUSE and FCMD and sets HALT, a later one changes nothing, and no other state
is written. -/
def Obligations.FirstFaultIsRecordedLaterOnesAreNot : Prop :=
  ∀ (cause : Cause) (word : CmdWord) (s : State),
    (s.halt = false → raiseFault cause word s = { s with fcause := cause, fcmd := word, halt := true }) ∧
    (s.halt = true → raiseFault cause word s = s)

/-- R230, R231, R232: an instruction faults exactly when the table says so, with the first cause in the order of R231,
and a faulting one changes nothing of the block but FCAUSE, FCMD and HALT. -/
def Obligations.InstructionFaultsExactlyWhenTheTableSays : Prop :=
  ∀ (i : Instr) (s : State), s.halt = false → ∃ t, exec i s = .next t ∧
    (expectedCause i s = .none → t.halt = false ∧ t.fcause = s.fcause ∧ t.fcmd = s.fcmd) ∧
    (expectedCause i s ≠ .none →
      t.halt = true ∧ t.fcause = expectedCause i s ∧ t.fcmd = recordedWord i ∧
      t.grid = s.grid ∧ t.defd = s.defd ∧ t.fa = s.fa ∧ t.fv = s.fv ∧ t.txh = s.txh ∧ t.ldrem = s.ldrem ∧
      t.res0 = s.res0 ∧ t.res1 = s.res1 ∧ t.res2 = s.res2 ∧ t.resetInHold = s.resetInHold)

/-- R234: while HALT = 1 HOST's word is never consumed, GRID, DEF, FA, FV, RES0..RES2 and LDREM keep their values, and
the transport port and the status port keep working. -/
def Obligations.HaltedBlockAcceptsNoCommandWord : Prop :=
  ∀ (s : State) (turn : Turn) (ts : List Turn), s.halt = true → s.turns = turn :: ts → turn ≠ .reset →
    (∃ t, step s = .next t ∧ t.hostQ = s.hostQ ∧ t.grid = s.grid ∧ t.defd = s.defd ∧ t.fa = s.fa ∧ t.fv = s.fv ∧
      t.res0 = s.res0 ∧ t.res1 = s.res1 ∧ t.res2 = s.res2 ∧ t.ldrem = s.ldrem) ∧
    (∀ w rest i, turn = .transport → s.txQ = w :: rest → decodeTreq w = .ok i →
      step s = exec i { s with turns := ts, txQ := rest }) ∧
    (∀ i rest, turn = .status → s.statusQ = i :: rest →
      step s = exec (.sread i) { s with turns := ts, statusQ := rest })

/-- R272: while reset is not asserted, no step clears a DEF bit, FV, HALT, FCAUSE or FCMD, or takes a value away from a
byte of FA. -/
def Obligations.OnlyResetClearsWhatItClears : Prop :=
  ∀ (s t : State), BlockInv s → s.turns.head? ≠ some .reset → step s = .next t →
    (∀ k, s.defBit k = true → t.defBit k = true) ∧
    (s.fv = true → t.fv = true) ∧
    (s.halt = true → t.halt = true ∧ t.fcause = s.fcause ∧ t.fcmd = s.fcmd) ∧
    (∀ a, s.fa.read a ≠ none → t.fa.read a ≠ none)

/-! ### Reset -/

/-- R270: with reset asserted every piece of the block's state takes its reset value. (GRID's values are unspecified and
FA has none; what the agents still offer is kept: log entries 4 and 6.) -/
def Obligations.ResetGivesTheResetValues : Prop :=
  ∀ (s : State) (ts : List Turn), s.turns = .reset :: ts → ∃ t, step s = .next t ∧
    t.build = s.build ∧ t.defd.length = t.build.cells ∧ (∀ k, t.defBit k = false) ∧
    (∀ a, t.fa.read a = none) ∧
    (∀ o, t.build.activeLen ≤ o → o < t.build.frameLen → t.frameByte o = some 0x00#8) ∧
    t.res0 = 0#32 ∧ t.res1 = 0#32 ∧ t.res2 = 0#32 ∧
    t.fv = false ∧ t.txh = false ∧ t.halt = false ∧ t.ldrem = 0 ∧ t.ld = false ∧
    t.fcause = .none ∧ t.fcmd = 0#64 ∧
    t.statusReg 7#4 = s.statusReg 7#4 ∧ t.statusReg 8#4 = s.statusReg 8#4 ∧ t.statusReg 9#4 = s.statusReg 9#4

/-- R34: the value each status register has right after reset, for every build. -/
def Obligations.StatusRegistersAfterReset : Prop :=
  ∀ b : Build,
    (∀ i : StatusIdx, i ≠ 7#4 → i ≠ 8#4 → i ≠ 9#4 → (State.resetOf b).statusReg i = 0#32) ∧
    ((State.resetOf b).statusReg 7#4).toNat = b.width * 65536 + b.height ∧
    ((State.resetOf b).statusReg 8#4).toNat = b.padLen ∧
    (State.resetOf b).statusReg 9#4 = b.pulse.lookup 3#2 ++ b.pulse.lookup 2#2 ++ b.pulse.lookup 1#2 ++ b.pulse.lookup 0#2

/-- R276, with R206 and R230: a reset while TXH = 1 is remembered until the next TX_ACQUIRE, and until then TX_READ
returns any value, the free byte; its TX_PROTOCOL fault is recorded as ever (log entry 7: an inference). -/
def Obligations.ReadAfterAResetInAHoldReturnsAnyValue : Prop :=
  (∀ (s : State) (ts : List Turn), s.turns = .reset :: ts → s.txh = true →
    ∃ t, step s = .next t ∧ t.resetInHold = true) ∧
  (∀ (i : Instr) (s t : State), s.resetInHold = true → exec i s = .next t → t.resetInHold = false → i = .txAcquire) ∧
  (∀ (offset : Word) (s : State), s.txh = false → s.resetInHold = true →
    exec (.txRead offset) s = .next { raiseFault .txProtocol ((2#2 ++ offset).setWidth 64) s with
      txReplies := s.txReplies ++ [Config.freeByte s.draws], draws := s.draws + 1 })

/-! ### Pixel Timing Encoder -/

/-- R122: ENC writes `{P[v[7:6]], P[v[5:4]], P[v[3:2]], P[v[1:0]]}` to RES0 and nothing else; a nonzero bit of [55:8]
is refused by the decoder. -/
def Obligations.EncWritesTheChannelCodeToRes0 : Prop :=
  (∀ (v : Byte) (s : State), exec (.enc v) s = .next { s with
    res0 := s.build.pulse.lookup (v.extractLsb' 6 2) ++ s.build.pulse.lookup (v.extractLsb' 4 2)
      ++ s.build.pulse.lookup (v.extractLsb' 2 2) ++ s.build.pulse.lookup (v.extractLsb' 0 2) }) ∧
  (∀ w : CmdWord, w.extractLsb' 56 8 = 0x05#8 → w.extractLsb' 8 48 ≠ 0#48 → decodeCommand w = .error .reservedBits)

/-- R124: ENCPIX writes enc(green), enc(red), enc(blue) to RES0, RES1, RES2 and nothing else; a nonzero bit of [55:24]
is refused by the decoder. -/
def Obligations.EncpixWritesGreenRedBlue : Prop :=
  (∀ (red green blue : Byte) (s : State), exec (.encpix red green blue) s = .next { s with
    res0 := encChannel s.build.pulse green
    res1 := encChannel s.build.pulse red
    res2 := encChannel s.build.pulse blue }) ∧
  (∀ w : CmdWord, w.extractLsb' 56 8 = 0x06#8 → w.extractLsb' 24 32 ≠ 0#32 → decodeCommand w = .error .reservedBits)

/-- R123: every byte of enc(v) is a pulse code, decoding the bytes and reassembling them gives v back, and enc is
injective; encpix holds the three encodings in the order green, red, blue. -/
def Obligations.EncoderRoundTrip : Prop :=
  (∀ (p : PulseCode) (g : BitVec 2), p.dec (p.lookup g) = some g) ∧
  (∀ (p : PulseCode) (b : Byte) (g : BitVec 2), p.dec b = some g → p.lookup g = b) ∧
  (∀ (p : PulseCode) (v : Byte), ∃ g0 g1 g2 g3 : BitVec 2,
    p.dec ((encChannel p v).extractLsb' 24 8) = some g0 ∧ p.dec ((encChannel p v).extractLsb' 16 8) = some g1 ∧
    p.dec ((encChannel p v).extractLsb' 8 8) = some g2 ∧ p.dec ((encChannel p v).extractLsb' 0 8) = some g3 ∧
    g0 ++ g1 ++ g2 ++ g3 = v) ∧
  (∀ (p : PulseCode) (v1 v2 : Byte), encChannel p v1 = encChannel p v2 → v1 = v2) ∧
  (∀ (p : PulseCode) (px : Pixel), (encPixel p px).extractLsb' 64 32 = encChannel p px.green ∧
    (encPixel p px).extractLsb' 32 32 = encChannel p px.red ∧ (encPixel p px).extractLsb' 0 32 = encChannel p px.blue)

/-! ### Serpentine Address Mapper -/

/-- R143: PHYSIDX writes the physical index to RES0 and the frame offset, 12 times it, to RES1 and nothing else; out of
range it raises RANGE and writes neither; a nonzero bit of [23:0] is refused by the decoder, which comes first. -/
def Obligations.PhysidxWritesIndexAndOffset : Prop :=
  (∀ (row col : Half) (s : State), row.toNat < s.build.height → col.toNat < s.build.width →
    ∃ r0 r1 : Word, exec (.physidx row col) s = .next { s with res0 := r0, res1 := r1 } ∧
      r0.toNat = (if row.toNat % 2 = 1 then row.toNat * s.build.width + col.toNat
        else row.toNat * s.build.width + (s.build.width - 1 - col.toNat)) ∧
      r1.toNat = 12 * r0.toNat) ∧
  (∀ (row col : Half) (s : State), s.build.height ≤ row.toNat ∨ s.build.width ≤ col.toNat →
    exec (.physidx row col) s = .next (raiseFault .range (encodeCmd 0x07#8 row col 0#8 0#8 0#8) s)) ∧
  (∀ w : CmdWord, w.extractLsb' 56 8 = 0x07#8 → w.extractLsb' 0 24 ≠ 0#24 → decodeCommand w = .error .reservedBits)

/-- R141: (a) range, (b) row block, (c) bijection with (d) its inverse, (e) adjacent rows meet in one column, (f) one
column is the identity. -/
def Obligations.SerpentineIsABijection : Prop :=
  ∀ b : Build,
    (∀ row col, row < b.height → col < b.width →
      phys b row col < b.cells ∧ row * b.width ≤ phys b row col ∧ phys b row col ≤ row * b.width + b.width - 1 ∧
      physInv b (phys b row col) = (row, col)) ∧
    (∀ p, p < b.cells → (physInv b p).1 < b.height ∧ (physInv b p).2 < b.width ∧
      phys b (physInv b p).1 (physInv b p).2 = p) ∧
    (∀ row, row + 1 < b.height →
      phys b row (if row % 2 = 0 then 0 else b.width - 1) = row * b.width + b.width - 1 ∧
      phys b (row + 1) (if row % 2 = 0 then 0 else b.width - 1) = (row + 1) * b.width) ∧
    (b.width = 1 → ∀ row, phys b row 0 = row)

/-! ### RGB Frame Buffer -/

/-- R180: WRPIX writes GRID[k] and DEF[k] for k = row*W + col and nothing else; out of range it raises RANGE and writes
no cell. -/
def Obligations.WrpixWritesOneCell : Prop :=
  (∀ (row col : Half) (red green blue : Byte) (s : State),
    s.grid.length = s.build.cells → s.defd.length = s.build.cells →
    row.toNat < s.build.height → col.toNat < s.build.width →
    ∃ t, exec (.wrpix row col red green blue) s = .next t ∧
      t.cell (row.toNat * s.build.width + col.toNat) = ⟨red, green, blue⟩ ∧
      t.defBit (row.toNat * s.build.width + col.toNat) = true ∧
      (∀ j, j ≠ row.toNat * s.build.width + col.toNat → t.cell j = s.cell j ∧ t.defBit j = s.defBit j) ∧
      { t with grid := s.grid, defd := s.defd } = s ∧ (∀ a, t.frameByte a = s.frameByte a)) ∧
  (∀ (row col : Half) (red green blue : Byte) (s : State),
    s.build.height ≤ row.toNat ∨ s.build.width ≤ col.toNat →
    exec (.wrpix row col red green blue) s =
      .next (raiseFault .range (encodeCmd 0x01#8 row col red green blue) s))

/-- R182: CLEAR makes every cell black and every DEF bit 1, and writes nothing else; a bit other than OP is refused by
the decoder. -/
def Obligations.ClearBlackensEveryCell : Prop :=
  (∀ s : State, ∃ t, exec .clear s = .next t ∧
    (∀ k, k < s.build.cells → t.cell k = ⟨0#8, 0#8, 0#8⟩ ∧ t.defBit k = true) ∧
    t.grid.length = s.build.cells ∧ t.defd.length = s.build.cells ∧
    { t with grid := s.grid, defd := s.defd } = s ∧ (∀ a, t.frameByte a = s.frameByte a)) ∧
  (∀ w : CmdWord, w.extractLsb' 56 8 = 0x02#8 → w.extractLsb' 0 56 ≠ 0#56 → decodeCommand w = .error .reservedBits)

/-- R184: LOADGRID sets LDREM to N, so STATUS.LD becomes 1, and writes nothing else; a bit other than OP is refused by
the decoder. -/
def Obligations.LoadgridExpectsNBeats : Prop :=
  (∀ s : State, ∃ t, exec .loadgrid s = .next t ∧ t = { s with ldrem := s.build.width * s.build.height } ∧
    t.ld = true) ∧
  (∀ w : CmdWord, w.extractLsb' 56 8 = 0x03#8 → w.extractLsb' 0 56 ≠ 0#56 → decodeCommand w = .error .reservedBits)

/-- R186: a data beat writes cell N - LDREM and its DEF bit, takes one off LDREM, and writes nothing else; a word with a
nonzero bit of [63:24] is refused by the decoder, and the step that takes it raises ILLEGAL: LDREM keeps its value, no
cell is written, and the block halts. -/
def Obligations.BeatLoadsTheNextCell : Prop :=
  (∀ (red green blue : Byte) (s : State),
    s.grid.length = s.build.cells → s.defd.length = s.build.cells → 0 < s.ldrem → s.ldrem ≤ s.build.cells →
    ∃ t, exec (.beat red green blue) s = .next t ∧
      t.cell (s.build.cells - s.ldrem) = ⟨red, green, blue⟩ ∧ t.defBit (s.build.cells - s.ldrem) = true ∧
      (∀ j, j ≠ s.build.cells - s.ldrem → t.cell j = s.cell j ∧ t.defBit j = s.defBit j) ∧
      t.ldrem = s.ldrem - 1 ∧
      { t with grid := s.grid, defd := s.defd, ldrem := s.ldrem } = s ∧ (∀ a, t.frameByte a = s.frameByte a)) ∧
  (∀ w : CmdWord, w.extractLsb' 24 40 ≠ 0#40 → decodeBeat w = .error .reservedBeatBits) ∧
  (∀ (s : State) (w : CmdWord) (rest : List CmdWord) (ts : List Turn),
    s.turns = .command :: ts → s.hostQ = w :: rest → s.halt = false → 0 < s.ldrem → w.extractLsb' 24 40 ≠ 0#40 →
    ∃ t, step s = .next t ∧ t.ldrem = s.ldrem ∧ t.halt = true ∧ t.fcause = .illegal ∧ t.fcmd = w ∧
      t.grid = s.grid ∧ t.defd = s.defd)

/-- R184, R186, R103: LOADGRID and N data beats replace the whole grid in logical-index order, and end the load. -/
def Obligations.LoadReplacesTheWholeGrid : Prop :=
  ∀ (s : State) (colours : List Pixel), s.grid.length = s.build.cells → s.defd.length = s.build.cells →
    colours.length = s.build.cells →
    ∃ t, execAll (.loadgrid :: colours.map fun c => .beat c.red c.green c.blue) s = .next t ∧
      t.grid = colours ∧ t.populated = true ∧ t.ldrem = 0 ∧
      { t with grid := s.grid, defd := s.defd, ldrem := s.ldrem } = s

/-! ### Transmit Frame Assembler -/

/-- R161 (with R160): ASSEMBLE puts byte j of encpix of the cell at (row, col) at frame offset 12*phys(row, col) + j,
for every cell; the padding reads 0x00; FV becomes 1; nothing else is written. -/
def Obligations.AssembleWritesEveryPixelAtItsPlace : Prop :=
  ∀ s : State, s.fa.wf = true → s.txh = false → s.populated = true →
    ∃ t, exec .assemble s = .next t ∧ t.fv = true ∧
      (∀ row col j, row < s.build.height → col < s.build.width → j < 12 →
        t.frameByte (12 * phys s.build row col + j) =
          some ((encPixel s.build.pulse (s.cell (row * s.build.width + col))).extractLsb' (8 * (11 - j)) 8)) ∧
      (∀ o, s.build.activeLen ≤ o → o < s.build.frameLen → t.frameByte o = some 0x00#8) ∧
      { t with fa := s.fa, fv := s.fv } = s ∧ t.fa.wf = true

/-- R160: ASSEMBLE raises TX_BUSY while TXH = 1, whatever the grid holds; else UNDEF_PIXEL where some cell has DEF = 0;
and a bit other than OP is refused by the decoder. A faulting ASSEMBLE writes no byte of FA and leaves FV. -/
def Obligations.AssembleFaultsInOrder : Prop :=
  (∀ s : State, s.txh = true → exec .assemble s = .next (raiseFault .txBusy 0x0400000000000000#64 s)) ∧
  (∀ (s : State) (k : Nat), s.txh = false → k < s.build.cells → s.defBit k = false →
    exec .assemble s = .next (raiseFault .undefPixel 0x0400000000000000#64 s)) ∧
  (∀ w : CmdWord, w.extractLsb' 56 8 = 0x04#8 → w.extractLsb' 0 56 ≠ 0#56 → decodeCommand w = .error .reservedBits) ∧
  (∀ (cause : Cause) (word : CmdWord) (s : State),
    (raiseFault cause word s).fa = s.fa ∧ (raiseFault cause word s).fv = s.fv)

/-- R162: after a successful ASSEMBLE every active byte is a pulse code and none of them 0x00, every padding byte is
0x00, and the frame has 12*W*H + R bytes. -/
def Obligations.AssembledFrameIsCodesThenZeros : Prop :=
  ∀ s : State, s.fa.wf = true → s.txh = false → s.populated = true →
    ∃ t, exec .assemble s = .next t ∧
      (∀ o, o < 12 * (s.build.width * s.build.height) →
        ∃ g : BitVec 2, t.frameByte o = some (s.build.pulse.lookup g) ∧ s.build.pulse.lookup g ≠ 0x00#8) ∧
      (∀ o, 12 * (s.build.width * s.build.height) ≤ o →
        o < 12 * (s.build.width * s.build.height) + s.build.padLen → t.frameByte o = some 0x00#8) ∧
      (∀ o, 12 * (s.build.width * s.build.height) + s.build.padLen ≤ o → t.frameByte o = none)

/-- R11, R121, R161: MemRead of the 12 bytes of a physical index gives encpix of its cell, the first byte the most
significant. -/
def Obligations.MemReadOfAnAssembledPixelIsItsCode : Prop :=
  ∀ s : State, s.fa.wf = true → s.txh = false → s.populated = true →
    ∃ t, exec .assemble s = .next t ∧
      ∀ p, p < s.build.cells → t.memRead (12 * p) 12 =
        some (encPixel s.build.pulse (s.cell ((physInv s.build p).1 * s.build.width + (physInv s.build p).2)))

/-- R69: ASSEMBLE over an unchanged grid writes the same frame again. -/
def Obligations.AssembleIsIdempotent : Prop :=
  ∀ s : State, s.fa.wf = true → s.txh = false → s.populated = true →
    ∃ t u, exec .assemble s = .next t ∧ exec .assemble t = .next u ∧ u.fv = true ∧
      ∀ o, u.frameByte o = t.frameByte o

/-- S-5 (R182, R160): CLEAR and ASSEMBLE give an active region of P[0] throughout, and zero padding. -/
def Obligations.ClearedGridAssemblesToTheZeroCode : Prop :=
  ∀ s : State, s.fa.wf = true → s.txh = false →
    ∃ t, execAll [.clear, .assemble] s = .next t ∧
      (∀ o, o < s.build.activeLen → t.frameByte o = some s.build.pulse.p0) ∧
      (∀ o, s.build.activeLen ≤ o → o < s.build.frameLen → t.frameByte o = some 0x00#8)

/-- R163: no instruction but ASSEMBLE writes the active region or sets FV; WRPIX, CLEAR and LOADGRID change no byte of
the frame. -/
def Obligations.OnlyAssembleWritesTheFrame : Prop :=
  ∀ (i : Instr) (s t : State), exec i s = .next t → i ≠ .assemble →
    t.fa = s.fa ∧ t.fv = s.fv ∧ ∀ a, t.frameByte a = s.frameByte a

/-- R71: while the transport holds the frame, no step but a reset changes any FRAME byte. -/
def Obligations.FrameIsStableUnderAHold : Prop :=
  ∀ (s t : State), s.txh = true → s.turns.head? ≠ some .reset → step s = .next t →
    ∀ a, t.frameByte a = s.frameByte a

/-- R28: the padding reads 0x00 in every state. -/
def Obligations.PaddingReadsZeroAlways : Prop :=
  ∀ (s : State) (o : Nat), 12 * (s.build.width * s.build.height) ≤ o →
    o < 12 * (s.build.width * s.build.height) + s.build.padLen → s.frameByte o = some 0x00#8

/-! ### Status port and NOP -/

/-- R31, R33: STATUS mirrors FV, TXH, HALT and LDREM != 0 in bits 0 to 3 and reads zero above; CFG_DIM, CFG_PAD and
CFG_PCODE read the configuration. -/
def Obligations.StatusAndConfigurationRegistersMirrorTheBlock : Prop :=
  ∀ s : State,
    (∀ n, (s.statusReg 0#4).getLsbD n =
      if n = 0 then s.fv else if n = 1 then s.txh else if n = 2 then s.halt
      else if n = 3 then decide (s.ldrem ≠ 0) else false) ∧
    ((s.statusReg 7#4).extractLsb' 16 16).toNat = s.build.width ∧
    ((s.statusReg 7#4).extractLsb' 0 16).toNat = s.build.height ∧
    (s.statusReg 8#4).toNat = s.build.padLen ∧
    (s.statusReg 9#4).extractLsb' 0 8 = s.build.pulse.lookup 0#2 ∧
    (s.statusReg 9#4).extractLsb' 8 8 = s.build.pulse.lookup 1#2 ∧
    (s.statusReg 9#4).extractLsb' 16 8 = s.build.pulse.lookup 2#2 ∧
    (s.statusReg 9#4).extractLsb' 24 8 = s.build.pulse.lookup 3#2

/-- R32, R230: FCAUSE reads the cause's code in bits [7:0] and zero above, FCMD_HI and FCMD_LO the two halves of FCMD. -/
def Obligations.FaultRegistersReadTheRecordedFault : Prop :=
  ∀ s : State,
    (s.statusReg 1#4).toNat = (match s.fcause with
      | .none => 0 | .illegal => 1 | .range => 2 | .undefPixel => 3 | .txBusy => 4 | .txProtocol => 5 | .txRange => 6) ∧
    s.statusReg 2#4 ++ s.statusReg 3#4 = s.fcmd

/-- R200: SREAD returns the value of the register its index names, has no side effect, and answers in every state. -/
def Obligations.SreadReturnsTheRegister : Prop :=
  ∀ (idx : StatusIdx) (s : State), s.ldrem ≤ s.build.cells → ∃ v : Word,
    exec (.sread idx) s = .next { s with statusReplies := s.statusReplies ++ [v] } ∧
    (idx = 0#4 → v = 0#28 ++ BitVec.ofBool (decide (s.ldrem ≠ 0)) ++ BitVec.ofBool s.halt ++ BitVec.ofBool s.txh
      ++ BitVec.ofBool s.fv) ∧
    v = s.statusReg idx ∧
    (idx = 2#4 → v = s.fcmd.extractLsb' 32 32) ∧ (idx = 3#4 → v = s.fcmd.extractLsb' 0 32) ∧
    (idx = 4#4 → v = s.res0) ∧ (idx = 5#4 → v = s.res1) ∧ (idx = 6#4 → v = s.res2) ∧
    (idx = 10#4 → v.toNat = s.ldrem) ∧ (11#4 ≤ idx → v = 0#32)

/-- R210: NOP changes nothing, and any other word with OP = 0x00 is refused by the decoder. -/
def Obligations.NopChangesNothing : Prop :=
  (∀ s : State, exec .nop s = .next s) ∧
  (∀ w : CmdWord, w.extractLsb' 56 8 = 0x00#8 → w ≠ 0#64 → decodeCommand w = .error .reservedBits)

/-! ### Transport port -/

/-- R204: TX_ACQUIRE sets TXH while it is 0 and raises TX_PROTOCOL while it is 1; a nonzero OFFSET is refused by the
decoder. (It also ends the memory of a reset in a hold, R276.) -/
def Obligations.TxAcquireTakesTheHold : Prop :=
  (∀ s : State, s.txh = false → exec .txAcquire s = .next { s with txh := true, resetInHold := false }) ∧
  (∀ s : State, s.txh = true → exec .txAcquire s = .next (raiseFault .txProtocol 0x100000000#64 s)) ∧
  (∀ w : ReqWord, w.extractLsb' 32 2 = 1#2 → w.extractLsb' 0 32 ≠ 0#32 → decodeTreq w = .error .reservedOffset)

/-- R206: what TX_READ returns and when it faults, case by case: TX_PROTOCOL outside a hold, TX_RANGE at or above
FRAME_LEN, any value from the active region while FV = 0, else the frame's byte; the padding reads 0x00. -/
def Obligations.TxReadReturnsTheFrameByte : Prop :=
  ∀ (offset : Word) (s : State), BlockInv s →
    (s.txh = false → s.resetInHold = false → exec (.txRead offset) s =
      .next { raiseFault .txProtocol ((2#2 ++ offset).setWidth 64) s with txReplies := s.txReplies ++ [0x00#8] }) ∧
    (s.txh = true → s.build.frameLen ≤ offset.toNat → exec (.txRead offset) s =
      .next { raiseFault .txRange ((2#2 ++ offset).setWidth 64) s with txReplies := s.txReplies ++ [0x00#8] }) ∧
    (s.txh = true → offset.toNat < s.build.activeLen → s.fv = false → exec (.txRead offset) s =
      .next { s with txReplies := s.txReplies ++ [Config.freeByte s.draws], draws := s.draws + 1 }) ∧
    (s.txh = true → offset.toNat < s.build.activeLen → s.fv = true → ∃ b, s.fa.read offset.toNat = some b ∧
      exec (.txRead offset) s = .next { s with txReplies := s.txReplies ++ [b] }) ∧
    (s.txh = true → s.build.activeLen ≤ offset.toNat → offset.toNat < s.build.frameLen → exec (.txRead offset) s =
      .next { s with txReplies := s.txReplies ++ [0x00#8] })

/-- R208: TX_RELEASE clears TXH while it is 1 and raises TX_PROTOCOL while it is 0; a nonzero OFFSET is refused by the
decoder. -/
def Obligations.TxReleaseDropsTheHold : Prop :=
  (∀ s : State, s.txh = true → exec .txRelease s = .next { s with txh := false }) ∧
  (∀ s : State, s.txh = false → exec .txRelease s = .next (raiseFault .txProtocol 0x300000000#64 s)) ∧
  (∀ w : ReqWord, w.extractLsb' 32 2 = 3#2 → w.extractLsb' 0 32 ≠ 0#32 → decodeTreq w = .error .reservedOffset)

/-- R73: a hold that TRANSPORT releases lets a later ASSEMBLE succeed. -/
def Obligations.ReleaseLetsAssembleSucceed : Prop :=
  ∀ s : State, s.txh = true → s.populated = true →
    ∃ t, execAll [.txRelease, .assemble] s = .next t ∧ t.fv = true ∧ t.txh = false ∧ t.halt = s.halt

/-- R214, for ASSEMBLE and the three transport requests: sent as their duty asks, none of them is faulted. That is
ASSEMBLE of a populated grid outside a hold, TX_ACQUIRE of an assembled frame outside a hold, and TX_READ below FRAME_LEN
and TX_RELEASE inside one. (HOST's duty of N beats after LOADGRID: DutifulRenderCycleRaisesNoFault.) -/
def Obligations.DutifulAssembleAndTransportRequestsRaiseNoFault : Prop :=
  ∀ s : State, s.halt = false →
    (s.mayAssemble = true → ∃ t, exec .assemble s = .next t ∧ t.halt = false ∧ t.fv = true) ∧
    (s.mayAcquire = true → ∃ t, exec .txAcquire s = .next t ∧ t.halt = false ∧ t.txh = true) ∧
    (∀ offset : Word, s.txh = true → offset.toNat < s.build.frameLen →
      ∃ t, exec (.txRead offset) s = .next t ∧ t.halt = false ∧ t.txReplies.length = s.txReplies.length + 1) ∧
    (s.txh = true → ∃ t, exec .txRelease s = .next t ∧ t.halt = false ∧ t.txh = false)

/-- R214, for HOST's render cycle: LOADGRID, exactly N data beats and ASSEMBLE while the frame is free, offered as the
words of R91 to R93 and taken on as many command-port turns, are performed without a fault, and the frame is then valid.
(The list of turns is the model's own: log entry 4.) -/
def Obligations.DutifulRenderCycleRaisesNoFault : Prop :=
  ∀ (s : State) (colours : List Pixel) (rest : List CmdWord) (ts : List Turn),
    s.grid.length = s.build.cells → s.defd.length = s.build.cells → s.halt = false → s.ldrem = 0 → s.txh = false →
    colours.length = s.build.cells →
    s.hostQ = 0x0300000000000000#64 ::
      (colours.map (fun c => 0#40 ++ c.red ++ c.green ++ c.blue) ++ 0x0400000000000000#64 :: rest) →
    s.turns = List.replicate (s.build.cells + 2) .command ++ ts →
    ∃ t, runSteps (s.build.cells + 2) s = .next t ∧ t.halt = false ∧ t.fcause = s.fcause ∧ t.fcmd = s.fcmd ∧
      t.fv = true ∧ t.grid = colours ∧ t.populated = true ∧ t.ldrem = 0 ∧ t.hostQ = rest ∧ t.turns = ts

/-- R103, R206: TX.FRAME returns the whole frame in offset order, and leaves the block as it was. -/
def Obligations.WholeFrameTransferReturnsTheFrame : Prop :=
  ∀ s : State, BlockInv s → s.txh = false → s.fv = true →
    ∃ t bytes, execAll (Asm.txFrame.instrs s.build) s = .next t ∧
      bytes.length = s.build.frameLen ∧ (∀ o, o < s.build.frameLen → s.frameByte o = bytes[o]?) ∧
      t = { s with txReplies := s.txReplies ++ bytes, resetInHold := false }

/-! ### Invariants and frames -/

/-- Every step keeps the invariant (R25, R27, R30, R31, R125, R230, R276). -/
def Obligations.EveryStepKeepsTheInvariant : Prop :=
  ∀ s t : State, BlockInv s → step s = .next t → BlockInv t

/-- The invariant holds right after reset, for every build (R270). -/
def Obligations.InvariantHoldsAfterReset : Prop :=
  (∀ b : Build, BlockInv (State.resetOf b)) ∧ BlockInv State.reset

/-- R22, R25, R29, R30, R163, R69: what each instruction leaves unchanged. Result registers change only by ENC, ENCPIX
and PHYSIDX, the grid and DEF only by WRPIX, CLEAR and BEAT, LDREM only by LOADGRID and BEAT, TXH only by TX_ACQUIRE and
TX_RELEASE, the frame and FV only by ASSEMBLE; the answers only by the two reads; the configuration, the offered words
and the turns by none. -/
def Obligations.InstructionsChangeOnlyWhatTheyName : Prop :=
  ∀ (i : Instr) (s t : State), exec i s = .next t →
    t.build = s.build ∧ t.hostQ = s.hostQ ∧ t.txQ = s.txQ ∧ t.statusQ = s.statusQ ∧ t.turns = s.turns ∧
    (i.mnemonic ∉ ["ENC", "ENCPIX", "PHYSIDX"] → t.res0 = s.res0) ∧
    (i.mnemonic ∉ ["ENCPIX", "PHYSIDX"] → t.res1 = s.res1) ∧
    (i.mnemonic ∉ ["ENCPIX"] → t.res2 = s.res2) ∧
    (i.mnemonic ∉ ["WRPIX", "CLEAR", "BEAT"] → t.grid = s.grid ∧ t.defd = s.defd) ∧
    (i.mnemonic ∉ ["LOADGRID", "BEAT"] → t.ldrem = s.ldrem) ∧
    (i.mnemonic ∉ ["TX_ACQUIRE", "TX_RELEASE"] → t.txh = s.txh) ∧
    (i.mnemonic ∉ ["TX_ACQUIRE"] → t.resetInHold = s.resetInHold) ∧
    (i.mnemonic ∉ ["ASSEMBLE"] → t.fa = s.fa ∧ t.fv = s.fv ∧ ∀ a, t.frameByte a = s.frameByte a) ∧
    (i.mnemonic ∉ ["TX_READ"] → t.txReplies = s.txReplies ∧ t.draws = s.draws) ∧
    (i.mnemonic ∉ ["SREAD"] → t.statusReplies = s.statusReplies)

/-- R26: cells never written since reset are unobservable: two states that differ in such cells only step to states that
differ in such cells only, with the same answers on every port. -/
def Obligations.UnwrittenCellsAreUnobservable : Prop :=
  ∀ s t : State, SameButUnwritten s t → OutcomesRelated SameButUnwritten (step s) (step t)

/-! ### Configuration and assembly text -/

/-- R6, R7, R8: exactly the legal configurations make a block, and the block has those parameters. -/
def Obligations.OnlyLegalConfigurationsMakeABlock : Prop :=
  (∀ (W H R : Nat) (p0 p1 p2 p3 : Byte),
    (Build.make? W H R p0 p1 p2 p3).isSome = true ↔
      (1 ≤ W ∧ W ≤ 65535 ∧ 1 ≤ H ∧ H ≤ 65535 ∧ 12 * (W * H) + R ≤ 2 ^ 32) ∧
      [p0, p1, p2, p3].Pairwise (· ≠ ·) ∧ ∀ p ∈ [p0, p1, p2, p3], p ≠ 0x00#8) ∧
  (∀ (W H R : Nat) (p0 p1 p2 p3 : Byte) (b : Build), Build.make? W H R p0 p1 p2 p3 = some b →
    b.width = W ∧ b.height = H ∧ b.padLen = R ∧
    b.pulse.lookup 0#2 = p0 ∧ b.pulse.lookup 1#2 = p1 ∧ b.pulse.lookup 2#2 = p2 ∧ b.pulse.lookup 3#2 = p3)

/-- R102: for every statement with an operand, an operand above its field's bound (row or col > 65535, a channel > 0xFF,
which for a colour is a number > 0xFFFFFF, o >= 2^32, i > 15) is an assembly error, and operands within it are not
truncated: every field of the word is stated, the operand fields as the numbers written, the others zero. -/
def Obligations.AssemblerNeverTruncatesAnOperand : Prop :=
  ∀ b : Build,
    (∀ row col rgb : Nat, 65535 < row ∨ 65535 < col ∨ 0xFFFFFF < rgb →
      (Asm.wrpix row col rgb).words b = .error .doesNotFit) ∧
    (∀ row col : Nat, 65535 < row ∨ 65535 < col → (Asm.physidx row col).words b = .error .doesNotFit) ∧
    (∀ rgb : Nat, 0xFFFFFF < rgb → (Asm.beat rgb).words b = .error .doesNotFit ∧
      (Asm.encpix rgb).words b = .error .doesNotFit ∧ (Asm.fill rgb).words b = .error .doesNotFit) ∧
    (∀ (cs : List Nat) (rgb : Nat), rgb ∈ cs → 0xFFFFFF < rgb →
      (Asm.loadgridList cs).words b = .error .doesNotFit) ∧
    (∀ v : Nat, 0xFF < v → (Asm.enc v).words b = .error .doesNotFit) ∧
    (∀ o : Nat, 2 ^ 32 ≤ o → (Asm.txRead o).words b = .error .doesNotFit) ∧
    (∀ i : Nat, 15 < i → (Asm.sread i).words b = .error .doesNotFit) ∧
    (∀ row col rgb : Nat, row ≤ 65535 → col ≤ 65535 → rgb ≤ 0xFFFFFF →
      ∃ w : CmdWord, (Asm.wrpix row col rgb).words b = .ok [.command w] ∧ w.extractLsb' 56 8 = 0x01#8 ∧
        (w.extractLsb' 40 16).toNat = row ∧ (w.extractLsb' 24 16).toNat = col ∧ (w.extractLsb' 0 24).toNat = rgb) ∧
    (∀ row col : Nat, row ≤ 65535 → col ≤ 65535 →
      ∃ w : CmdWord, (Asm.physidx row col).words b = .ok [.command w] ∧ w.extractLsb' 56 8 = 0x07#8 ∧
        (w.extractLsb' 40 16).toNat = row ∧ (w.extractLsb' 24 16).toNat = col ∧ w.extractLsb' 0 24 = 0#24) ∧
    (∀ rgb : Nat, rgb ≤ 0xFFFFFF →
      (∃ w : CmdWord, (Asm.beat rgb).words b = .ok [.command w] ∧ w.extractLsb' 24 40 = 0#40 ∧
        (w.extractLsb' 0 24).toNat = rgb) ∧
      (∃ w : CmdWord, (Asm.encpix rgb).words b = .ok [.command w] ∧ w.extractLsb' 56 8 = 0x06#8 ∧
        w.extractLsb' 24 32 = 0#32 ∧ (w.extractLsb' 0 24).toNat = rgb) ∧
      (∃ w : CmdWord, (Asm.fill rgb).words b =
          .ok (.command 0x0300000000000000#64 :: List.replicate b.cells (.command w)) ∧
        w.extractLsb' 24 40 = 0#40 ∧ (w.extractLsb' 0 24).toNat = rgb)) ∧
    (∀ cs : List Nat, cs.length = b.cells → (∀ rgb ∈ cs, rgb ≤ 0xFFFFFF) →
      ∃ ws : List CmdWord, (Asm.loadgridList cs).words b =
          .ok (.command 0x0300000000000000#64 :: ws.map .command) ∧
        (∀ w ∈ ws, w.extractLsb' 24 40 = 0#40) ∧ ws.map (fun w => (w.extractLsb' 0 24).toNat) = cs) ∧
    (∀ v : Nat, v ≤ 0xFF →
      ∃ w : CmdWord, (Asm.enc v).words b = .ok [.command w] ∧ w.extractLsb' 56 8 = 0x05#8 ∧
        w.extractLsb' 8 48 = 0#48 ∧ (w.extractLsb' 0 8).toNat = v) ∧
    (∀ o : Nat, o < 2 ^ 32 →
      ∃ w : ReqWord, (Asm.txRead o).words b = .ok [.transport w] ∧ w.extractLsb' 32 2 = 2#2 ∧
        (w.extractLsb' 0 32).toNat = o) ∧
    (∀ i : Nat, i ≤ 15 → ∃ x : StatusIdx, (Asm.sread i).words b = .ok [.status x] ∧ x.toNat = i)

/-- R103: a LOADGRID list takes exactly N colours and expands to LOADGRID and one beat each, FILL is the list of N equal
colours, and TX.FRAME is an acquire, a read of every offset in order, and a release. -/
def Obligations.PseudoInstructionsExpand : Prop :=
  (∀ (b : Build) (cs : List Nat), cs.length ≠ b.cells → (Asm.loadgridList cs).words b = .error .doesNotFit) ∧
  (∀ (b : Build) (cs : List Nat), cs.length = b.cells → (∀ c ∈ cs, c < 16777216) →
    (Asm.loadgridList cs).words b =
      .ok (.command 0x0300000000000000#64 :: cs.map fun c => .command (BitVec.ofNat 64 c))) ∧
  (∀ (b : Build) (c : Nat), (Asm.fill c).words b = (Asm.loadgridList (List.replicate b.cells c)).words b) ∧
  (∀ b : Build, Asm.txFrame.words b =
    .ok (.transport 0x100000000#34 ::
      (List.range b.frameLen).map (fun o => .transport (0x200000000#34 + BitVec.ofNat 34 o)) ++
        [.transport 0x300000000#34]))
end

