-- ==== Sys2Proof/Laws/Codec.lean ====
section
/-! SUPPORT. The fields of an encoded word are the operands it was encoded from. -/

namespace Sys2Proof

/-- A field is what its bits are. -/
theorem extract_eq_of_bits {n m : Nat} {w : BitVec n} {start : Nat} {x : BitVec m}
    (h : ∀ i, i < m → w.getLsbD (start + i) = x.getLsbD i) : w.extractLsb' start m = x := by
  apply BitVec.eq_of_getLsbD_eq
  intro i hi
  simpa [hi] using h i hi

variable (op : Byte) (row col : Half) (red grn blu : Byte) (top : BitVec 2) (offset : Word)

/-- Bit by bit, the field that a bit of a CMD word belongs to (R91). -/
theorem encodeCmd_getLsbD (i : Nat) : (encodeCmd op row col red grn blu).getLsbD i =
    if i < 8 then blu.getLsbD i else if i < 16 then grn.getLsbD (i - 8)
    else if i < 24 then red.getLsbD (i - 16) else if i < 40 then col.getLsbD (i - 24)
    else if i < 56 then row.getLsbD (i - 40) else op.getLsbD (i - 56) := by
  simp only [encodeCmd, BitVec.getLsbD_append]
  split_ifs <;> first | omega | rfl

@[simp] theorem op_encodeCmd : Field.op (encodeCmd op row col red grn blu) = op := by
  apply extract_eq_of_bits; intro i hi; rw [encodeCmd_getLsbD]; split_ifs <;> first | omega | (congr 1; omega)

@[simp] theorem row_encodeCmd : Field.row (encodeCmd op row col red grn blu) = row := by
  apply extract_eq_of_bits; intro i hi; rw [encodeCmd_getLsbD]; split_ifs <;> first | omega | (congr 1; omega)

@[simp] theorem col_encodeCmd : Field.col (encodeCmd op row col red grn blu) = col := by
  apply extract_eq_of_bits; intro i hi; rw [encodeCmd_getLsbD]; split_ifs <;> first | omega | (congr 1; omega)

@[simp] theorem red_encodeCmd : Field.red (encodeCmd op row col red grn blu) = red := by
  apply extract_eq_of_bits; intro i hi; rw [encodeCmd_getLsbD]; split_ifs <;> first | omega | (congr 1; omega)

@[simp] theorem grn_encodeCmd : Field.grn (encodeCmd op row col red grn blu) = grn := by
  apply extract_eq_of_bits; intro i hi; rw [encodeCmd_getLsbD]; split_ifs <;> first | omega | (congr 1; omega)

@[simp] theorem blu_encodeCmd : Field.blu (encodeCmd op row col red grn blu) = blu := by
  apply extract_eq_of_bits; intro i hi; rw [encodeCmd_getLsbD]; split_ifs <;> first | omega | (congr 1; omega)

/-- The reserved bits [55:8] of ENC are zero in its encoding. -/
@[simp] theorem encodeCmd_reserved48 : (encodeCmd op 0#16 0#16 0#8 0#8 blu).extractLsb' 8 48 = 0#48 := by
  apply extract_eq_of_bits; intro i hi; rw [encodeCmd_getLsbD]; split_ifs <;> first | omega | simp

/-- The reserved bits [55:24] of ENCPIX are zero in its encoding. -/
@[simp] theorem encodeCmd_reserved32 : (encodeCmd op 0#16 0#16 red grn blu).extractLsb' 24 32 = 0#32 := by
  apply extract_eq_of_bits; intro i hi; rw [encodeCmd_getLsbD]; split_ifs <;> first | omega | simp

/-- The reserved bits [23:0] of PHYSIDX are zero in its encoding. -/
@[simp] theorem encodeCmd_reserved24 : (encodeCmd op row col 0#8 0#8 0#8).extractLsb' 0 24 = 0#24 := by
  apply extract_eq_of_bits; intro i hi; rw [encodeCmd_getLsbD]; split_ifs <;> first | omega | simp

/-- The reserved bits [63:24] of a data beat are zero in its encoding. -/
@[simp] theorem encodeCmd_reserved40 : (encodeCmd 0x00#8 0#16 0#16 red grn blu).extractLsb' 24 40 = 0#40 := by
  apply extract_eq_of_bits; intro i hi; rw [encodeCmd_getLsbD]; split_ifs <;> first | omega | simp

@[simp] theorem top_encodeTreq : Field.top (encodeTreq top offset) = top := by
  apply extract_eq_of_bits; intro i hi
  simp only [encodeTreq, BitVec.getLsbD_append]
  split_ifs <;> first | omega | (congr 1; omega)

@[simp] theorem offset_encodeTreq : Field.offset (encodeTreq top offset) = offset := by
  apply extract_eq_of_bits; intro i hi
  simp only [encodeTreq, BitVec.getLsbD_append]
  split_ifs <;> first | omega | (congr 1; omega)

/-- Bits put before others count above them. -/
theorem toNat_append_eq_add {n m : Nat} (x : BitVec n) (y : BitVec m) :
    (x ++ y).toNat = x.toNat * 2 ^ m + y.toNat := by
  rw [BitVec.toNat_append, Nat.shiftLeft_eq, Nat.mul_comm, Nat.two_pow_add_eq_or_of_lt y.isLt]

/-- A CMD word as a number: each field at its place (R91). -/
theorem encodeCmd_toNat : (encodeCmd op row col red grn blu).toNat = op.toNat * 2 ^ 56 + row.toNat * 2 ^ 40 +
    col.toNat * 2 ^ 24 + red.toNat * 2 ^ 16 + grn.toNat * 2 ^ 8 + blu.toNat := by
  simp only [encodeCmd, toNat_append_eq_add]; omega

/-- A TREQ as a number (R94). -/
theorem encodeTreq_toNat : (encodeTreq top offset).toNat = top.toNat * 2 ^ 32 + offset.toNat :=
  toNat_append_eq_add _ _

/-- The channels of a colour that fits DATA24 hold all of it (R91, R102). -/
theorem ofRgb_toNat {rgb : Nat} (h : rgb ≤ 0xFFFFFF) : (Pixel.ofRgb rgb).red.toNat * 2 ^ 16 +
    (Pixel.ofRgb rgb).green.toNat * 2 ^ 8 + (Pixel.ofRgb rgb).blue.toNat = rgb := by
  simp only [Pixel.ofRgb, BitVec.toNat_ofNat]; omega

/-- The beat of a colour that fits is the colour's number as a word (R92, R102). -/
theorem encode_beatOfRgb {rgb : Nat} (h : rgb ≤ 0xFFFFFF) :
    encode (beatOfRgb rgb) = .command (BitVec.ofNat 64 rgb) := by
  have := ofRgb_toNat h
  simp only [encode, beatOfRgb]
  congr 1
  apply BitVec.eq_of_toNat_eq
  rw [encodeCmd_toNat]
  simp at *
  omega

end Sys2Proof
end

