-- ==== Sys2Proof/Laws/Config.lean ====
section
/-! SUPPORT. What a legal configuration guarantees (R6, R7, R8), and the pulse-code table's two lookups. -/

namespace Sys2Proof

theorem Build.bounds (b : Build) : 1 ≤ b.width ∧ b.width ≤ 65535 ∧ 1 ≤ b.height ∧ b.height ≤ 65535 ∧
    12 * (b.width * b.height) + b.padLen ≤ 4294967296 := by
  have h := b.ok
  simp only [Build.legal, Bool.and_eq_true, decide_eq_true_eq] at h
  omega

theorem Build.cells_pos (b : Build) : 1 ≤ b.cells := Nat.mul_pos b.bounds.1 b.bounds.2.2.1

theorem Build.frameLen_le (b : Build) : b.frameLen ≤ 4294967296 := b.bounds.2.2.2.2

theorem Build.padLen_lt (b : Build) : b.padLen < 4294967296 := by
  have h := b.frameLen_le
  have := b.cells_pos
  simp only [Build.frameLen, Build.activeLen] at h
  omega

theorem Build.cells_lt (b : Build) : b.cells < 4294967296 := by
  have h := b.frameLen_le
  have := b.cells_pos
  simp only [Build.frameLen, Build.activeLen] at h
  omega

/-- R7: the codes are pairwise distinct and none is zero. -/
theorem PulseCode.distinct (p : PulseCode) :
    (p.p0 ≠ p.p1 ∧ p.p0 ≠ p.p2 ∧ p.p0 ≠ p.p3 ∧ p.p1 ≠ p.p2 ∧ p.p1 ≠ p.p3 ∧ p.p2 ≠ p.p3) ∧
    (p.p0 ≠ 0#8 ∧ p.p1 ≠ 0#8 ∧ p.p2 ≠ 0#8 ∧ p.p3 ≠ 0#8) := by
  have h := p.ok
  simp only [PulseCode.legal, Bool.and_eq_true, bne_iff_ne] at h
  tauto

/-- The four groups. -/
theorem group_cases (g : BitVec 2) : g = 0#2 ∨ g = 1#2 ∨ g = 2#2 ∨ g = 3#2 := by
  revert g; decide

@[simp] theorem PulseCode.lookup_zero (p : PulseCode) : p.lookup 0#2 = p.p0 := rfl
@[simp] theorem PulseCode.lookup_one (p : PulseCode) : p.lookup 1#2 = p.p1 := rfl
@[simp] theorem PulseCode.lookup_two (p : PulseCode) : p.lookup 2#2 = p.p2 := rfl
@[simp] theorem PulseCode.lookup_three (p : PulseCode) : p.lookup 3#2 = p.p3 := rfl

theorem PulseCode.lookup_ne_zero (p : PulseCode) (g : BitVec 2) : p.lookup g ≠ 0#8 := by
  obtain ⟨-, h0, h1, h2, h3⟩ := p.distinct
  rcases group_cases g with rfl | rfl | rfl | rfl <;> assumption

end Sys2Proof
end

