-- ==== Sys2Proof/Laws/Memory.lean ====
section
/-! SUPPORT. The laws of the active region's memory: read after write, and the canonical form every write keeps. -/

namespace Sys2Proof.Machine

@[simp] theorem Memory.read_nil (a : Nat) : Memory.read [] a = none := rfl

@[simp] theorem Memory.read_cons (b : Nat) (x : Byte) (m : Memory) (a : Nat) :
    Memory.read ((b, x) :: m) a = if b = a then some x else Memory.read m a := rfl

/-- Below the first offset of a canonical memory nothing is listed. -/
theorem Memory.read_eq_none_of_lt {m : Memory} {b : Nat} {x : Byte} (h : Memory.wf ((b, x) :: m) = true) {a : Nat}
    (ha : a < b) : Memory.read ((b, x) :: m) a = none := by
  induction m generalizing b x with
  | nil => simp; omega
  | cons c m ih =>
    obtain ⟨c, y⟩ := c
    simp only [Memory.wf, Bool.and_eq_true, decide_eq_true_eq] at h
    rw [Memory.read_cons, if_neg (by omega), ih h.2 (by omega)]

theorem Memory.wf_tail {c : Host.Cell} {m : Memory} (h : Memory.wf (c :: m) = true) : Memory.wf m = true := by
  cases m with
  | nil => rfl
  | cons d m => simp only [Memory.wf, Bool.and_eq_true] at h; exact h.2

/-- A read after a write: the written byte at the written offset, and every other offset as before. -/
theorem Memory.read_write {m : Memory} (h : m.wf = true) (a : Nat) (v : Byte) (b : Nat) :
    (m.write a v).read b = if a = b then some v else m.read b := by
  induction m with
  | nil => simp [Memory.write]
  | cons c m ih =>
    obtain ⟨c, y⟩ := c
    simp only [Memory.write]
    split
    · simp
    · split
      · subst_vars
        simp only [Memory.read_cons]
        split <;> rfl
      · simp only [Memory.read_cons, ih (Memory.wf_tail h)]
        split <;> split <;> first | rfl | omega

/-- Every write keeps the canonical form. -/
theorem Memory.wf_write {m : Memory} (h : m.wf = true) (a : Nat) (v : Byte) : (m.write a v).wf = true := by
  induction m with
  | nil => rfl
  | cons c m ih =>
    obtain ⟨c, y⟩ := c
    simp only [Memory.write]
    split
    · simp [Memory.wf, *]
    · split
      · subst_vars
        cases m with
        | nil => rfl
        | cons d m => simpa [Memory.wf] using h
      · have ih := ih (Memory.wf_tail h)
        cases m with
        | nil => simp [Memory.write, Memory.wf]; omega
        | cons d m =>
          obtain ⟨d, z⟩ := d
          simp only [Memory.wf, Bool.and_eq_true, decide_eq_true_eq] at h
          simp only [Memory.write] at ih ⊢
          split
          · simp_all [Memory.wf]; omega
          · split
            · simp_all [Memory.wf]
            · simp_all [Memory.wf]

/-- `MemWrite` up to its n-th byte keeps the canonical form and stores exactly the first n bytes. -/
theorem Memory.foldl_write {m : Memory} (h : m.wf = true) (o : Nat) (f : Nat → Byte) (n : Nat) :
    ((List.range n).foldl (fun m k => m.write (o + k) (f k)) m).wf = true ∧
    ∀ a, ((List.range n).foldl (fun m k => m.write (o + k) (f k)) m).read a =
      if o ≤ a ∧ a < o + n then some (f (a - o)) else m.read a := by
  induction n with
  | zero => exact ⟨by simpa using h, fun a => by simp⟩
  | succ n ih =>
    rw [List.range_succ, List.foldl_append]
    refine ⟨Memory.wf_write ih.1 _ _, fun a => ?_⟩
    simp only [List.foldl_cons, List.foldl_nil]
    rw [Memory.read_write ih.1, ih.2]
    split
    · subst_vars
      rw [if_pos (by omega)]
      simp
    · split <;> split <;> first | rfl | omega

/-- `MemWrite` keeps the canonical form. -/
theorem wf_memWrite {m : Memory} (h : m.wf = true) (o n : Nat) (v : BitVec (8 * n)) : (memWrite m o n v).wf = true :=
  (Memory.foldl_write h o (fun k => v.extractLsb' (8 * (n - 1 - k)) 8) n).1

/-- What `MemWrite(o, n, v)` stores, byte by byte, and that every other offset reads as before (R11). -/
theorem read_memWrite {m : Memory} (h : m.wf = true) (o n : Nat) (v : BitVec (8 * n)) (a : Nat) :
    (memWrite m o n v).read a =
      if o ≤ a ∧ a < o + n then some (v.extractLsb' (8 * (n - 1 - (a - o))) 8) else m.read a :=
  (Memory.foldl_write h o (fun k => v.extractLsb' (8 * (n - 1 - k)) 8) n).2 a

end Sys2Proof.Machine
end

