-- ==== Sys2Proof/Laws/State.lean ====
section
/-! SUPPORT. One lemma per field for every named update of the state, so that no proof unfolds a record update. -/

namespace Sys2Proof.Machine

/-! ### writeCell: GRID[k] and DEF[k] only (R180) -/

@[simp] theorem writeCell_build (s : State) (k : Nat) (px : Pixel) : (s.writeCell k px).build = s.build := rfl
@[simp] theorem writeCell_grid (s : State) (k : Nat) (px : Pixel) : (s.writeCell k px).grid = s.grid.set k px := rfl
@[simp] theorem writeCell_defd (s : State) (k : Nat) (px : Pixel) : (s.writeCell k px).defd = s.defd.set k true := rfl
@[simp] theorem writeCell_fa (s : State) (k : Nat) (px : Pixel) : (s.writeCell k px).fa = s.fa := rfl
@[simp] theorem writeCell_res0 (s : State) (k : Nat) (px : Pixel) : (s.writeCell k px).res0 = s.res0 := rfl
@[simp] theorem writeCell_res1 (s : State) (k : Nat) (px : Pixel) : (s.writeCell k px).res1 = s.res1 := rfl
@[simp] theorem writeCell_res2 (s : State) (k : Nat) (px : Pixel) : (s.writeCell k px).res2 = s.res2 := rfl
@[simp] theorem writeCell_fv (s : State) (k : Nat) (px : Pixel) : (s.writeCell k px).fv = s.fv := rfl
@[simp] theorem writeCell_txh (s : State) (k : Nat) (px : Pixel) : (s.writeCell k px).txh = s.txh := rfl
@[simp] theorem writeCell_halt (s : State) (k : Nat) (px : Pixel) : (s.writeCell k px).halt = s.halt := rfl
@[simp] theorem writeCell_ldrem (s : State) (k : Nat) (px : Pixel) : (s.writeCell k px).ldrem = s.ldrem := rfl
@[simp] theorem writeCell_fcause (s : State) (k : Nat) (px : Pixel) : (s.writeCell k px).fcause = s.fcause := rfl
@[simp] theorem writeCell_fcmd (s : State) (k : Nat) (px : Pixel) : (s.writeCell k px).fcmd = s.fcmd := rfl
@[simp] theorem writeCell_resetInHold (s : State) (k : Nat) (px : Pixel) : (s.writeCell k px).resetInHold = s.resetInHold := rfl
@[simp] theorem writeCell_draws (s : State) (k : Nat) (px : Pixel) : (s.writeCell k px).draws = s.draws := rfl
@[simp] theorem writeCell_hostQ (s : State) (k : Nat) (px : Pixel) : (s.writeCell k px).hostQ = s.hostQ := rfl
@[simp] theorem writeCell_txQ (s : State) (k : Nat) (px : Pixel) : (s.writeCell k px).txQ = s.txQ := rfl
@[simp] theorem writeCell_statusQ (s : State) (k : Nat) (px : Pixel) : (s.writeCell k px).statusQ = s.statusQ := rfl
@[simp] theorem writeCell_turns (s : State) (k : Nat) (px : Pixel) : (s.writeCell k px).turns = s.turns := rfl
@[simp] theorem writeCell_txReplies (s : State) (k : Nat) (px : Pixel) : (s.writeCell k px).txReplies = s.txReplies := rfl
@[simp] theorem writeCell_statusReplies (s : State) (k : Nat) (px : Pixel) : (s.writeCell k px).statusReplies = s.statusReplies := rfl

/-! ### replyTx: the transport port's answers only -/

@[simp] theorem replyTx_build (s : State) (b : Byte) : (s.replyTx b).build = s.build := rfl
@[simp] theorem replyTx_grid (s : State) (b : Byte) : (s.replyTx b).grid = s.grid := rfl
@[simp] theorem replyTx_defd (s : State) (b : Byte) : (s.replyTx b).defd = s.defd := rfl
@[simp] theorem replyTx_fa (s : State) (b : Byte) : (s.replyTx b).fa = s.fa := rfl
@[simp] theorem replyTx_res0 (s : State) (b : Byte) : (s.replyTx b).res0 = s.res0 := rfl
@[simp] theorem replyTx_res1 (s : State) (b : Byte) : (s.replyTx b).res1 = s.res1 := rfl
@[simp] theorem replyTx_res2 (s : State) (b : Byte) : (s.replyTx b).res2 = s.res2 := rfl
@[simp] theorem replyTx_fv (s : State) (b : Byte) : (s.replyTx b).fv = s.fv := rfl
@[simp] theorem replyTx_txh (s : State) (b : Byte) : (s.replyTx b).txh = s.txh := rfl
@[simp] theorem replyTx_halt (s : State) (b : Byte) : (s.replyTx b).halt = s.halt := rfl
@[simp] theorem replyTx_ldrem (s : State) (b : Byte) : (s.replyTx b).ldrem = s.ldrem := rfl
@[simp] theorem replyTx_fcause (s : State) (b : Byte) : (s.replyTx b).fcause = s.fcause := rfl
@[simp] theorem replyTx_fcmd (s : State) (b : Byte) : (s.replyTx b).fcmd = s.fcmd := rfl
@[simp] theorem replyTx_resetInHold (s : State) (b : Byte) : (s.replyTx b).resetInHold = s.resetInHold := rfl
@[simp] theorem replyTx_draws (s : State) (b : Byte) : (s.replyTx b).draws = s.draws := rfl
@[simp] theorem replyTx_hostQ (s : State) (b : Byte) : (s.replyTx b).hostQ = s.hostQ := rfl
@[simp] theorem replyTx_txQ (s : State) (b : Byte) : (s.replyTx b).txQ = s.txQ := rfl
@[simp] theorem replyTx_statusQ (s : State) (b : Byte) : (s.replyTx b).statusQ = s.statusQ := rfl
@[simp] theorem replyTx_turns (s : State) (b : Byte) : (s.replyTx b).turns = s.turns := rfl
@[simp] theorem replyTx_txReplies (s : State) (b : Byte) : (s.replyTx b).txReplies = s.txReplies ++ [b] := rfl
@[simp] theorem replyTx_statusReplies (s : State) (b : Byte) : (s.replyTx b).statusReplies = s.statusReplies := rfl

/-! ### replyStatus: the status port's answers only -/

@[simp] theorem replyStatus_build (s : State) (v : Word) : (s.replyStatus v).build = s.build := rfl
@[simp] theorem replyStatus_grid (s : State) (v : Word) : (s.replyStatus v).grid = s.grid := rfl
@[simp] theorem replyStatus_defd (s : State) (v : Word) : (s.replyStatus v).defd = s.defd := rfl
@[simp] theorem replyStatus_fa (s : State) (v : Word) : (s.replyStatus v).fa = s.fa := rfl
@[simp] theorem replyStatus_res0 (s : State) (v : Word) : (s.replyStatus v).res0 = s.res0 := rfl
@[simp] theorem replyStatus_res1 (s : State) (v : Word) : (s.replyStatus v).res1 = s.res1 := rfl
@[simp] theorem replyStatus_res2 (s : State) (v : Word) : (s.replyStatus v).res2 = s.res2 := rfl
@[simp] theorem replyStatus_fv (s : State) (v : Word) : (s.replyStatus v).fv = s.fv := rfl
@[simp] theorem replyStatus_txh (s : State) (v : Word) : (s.replyStatus v).txh = s.txh := rfl
@[simp] theorem replyStatus_halt (s : State) (v : Word) : (s.replyStatus v).halt = s.halt := rfl
@[simp] theorem replyStatus_ldrem (s : State) (v : Word) : (s.replyStatus v).ldrem = s.ldrem := rfl
@[simp] theorem replyStatus_fcause (s : State) (v : Word) : (s.replyStatus v).fcause = s.fcause := rfl
@[simp] theorem replyStatus_fcmd (s : State) (v : Word) : (s.replyStatus v).fcmd = s.fcmd := rfl
@[simp] theorem replyStatus_resetInHold (s : State) (v : Word) : (s.replyStatus v).resetInHold = s.resetInHold := rfl
@[simp] theorem replyStatus_draws (s : State) (v : Word) : (s.replyStatus v).draws = s.draws := rfl
@[simp] theorem replyStatus_hostQ (s : State) (v : Word) : (s.replyStatus v).hostQ = s.hostQ := rfl
@[simp] theorem replyStatus_txQ (s : State) (v : Word) : (s.replyStatus v).txQ = s.txQ := rfl
@[simp] theorem replyStatus_statusQ (s : State) (v : Word) : (s.replyStatus v).statusQ = s.statusQ := rfl
@[simp] theorem replyStatus_turns (s : State) (v : Word) : (s.replyStatus v).turns = s.turns := rfl
@[simp] theorem replyStatus_txReplies (s : State) (v : Word) : (s.replyStatus v).txReplies = s.txReplies := rfl
@[simp] theorem replyStatus_statusReplies (s : State) (v : Word) : (s.replyStatus v).statusReplies = s.statusReplies ++ [v] := rfl

/-! ### replyTxFree: the transport port's answers, and one free byte drawn -/

@[simp] theorem replyTxFree_build (s : State) : (s.replyTxFree).build = s.build := rfl
@[simp] theorem replyTxFree_grid (s : State) : (s.replyTxFree).grid = s.grid := rfl
@[simp] theorem replyTxFree_defd (s : State) : (s.replyTxFree).defd = s.defd := rfl
@[simp] theorem replyTxFree_fa (s : State) : (s.replyTxFree).fa = s.fa := rfl
@[simp] theorem replyTxFree_res0 (s : State) : (s.replyTxFree).res0 = s.res0 := rfl
@[simp] theorem replyTxFree_res1 (s : State) : (s.replyTxFree).res1 = s.res1 := rfl
@[simp] theorem replyTxFree_res2 (s : State) : (s.replyTxFree).res2 = s.res2 := rfl
@[simp] theorem replyTxFree_fv (s : State) : (s.replyTxFree).fv = s.fv := rfl
@[simp] theorem replyTxFree_txh (s : State) : (s.replyTxFree).txh = s.txh := rfl
@[simp] theorem replyTxFree_halt (s : State) : (s.replyTxFree).halt = s.halt := rfl
@[simp] theorem replyTxFree_ldrem (s : State) : (s.replyTxFree).ldrem = s.ldrem := rfl
@[simp] theorem replyTxFree_fcause (s : State) : (s.replyTxFree).fcause = s.fcause := rfl
@[simp] theorem replyTxFree_fcmd (s : State) : (s.replyTxFree).fcmd = s.fcmd := rfl
@[simp] theorem replyTxFree_resetInHold (s : State) : (s.replyTxFree).resetInHold = s.resetInHold := rfl
@[simp] theorem replyTxFree_draws (s : State) : (s.replyTxFree).draws = s.draws + 1 := rfl
@[simp] theorem replyTxFree_hostQ (s : State) : (s.replyTxFree).hostQ = s.hostQ := rfl
@[simp] theorem replyTxFree_txQ (s : State) : (s.replyTxFree).txQ = s.txQ := rfl
@[simp] theorem replyTxFree_statusQ (s : State) : (s.replyTxFree).statusQ = s.statusQ := rfl
@[simp] theorem replyTxFree_turns (s : State) : (s.replyTxFree).turns = s.turns := rfl
@[simp] theorem replyTxFree_txReplies (s : State) : (s.replyTxFree).txReplies = s.txReplies ++ [Config.freeByte s.draws] := rfl
@[simp] theorem replyTxFree_statusReplies (s : State) : (s.replyTxFree).statusReplies = s.statusReplies := rfl

/-! ### raiseFault: fault entry changes FCAUSE, FCMD and HALT at most (R232) -/

@[simp] theorem raiseFault_build (c : Cause) (w : CmdWord) (s : State) : (raiseFault c w s).build = s.build := by unfold raiseFault; split <;> rfl
@[simp] theorem raiseFault_grid (c : Cause) (w : CmdWord) (s : State) : (raiseFault c w s).grid = s.grid := by unfold raiseFault; split <;> rfl
@[simp] theorem raiseFault_defd (c : Cause) (w : CmdWord) (s : State) : (raiseFault c w s).defd = s.defd := by unfold raiseFault; split <;> rfl
@[simp] theorem raiseFault_fa (c : Cause) (w : CmdWord) (s : State) : (raiseFault c w s).fa = s.fa := by unfold raiseFault; split <;> rfl
@[simp] theorem raiseFault_res0 (c : Cause) (w : CmdWord) (s : State) : (raiseFault c w s).res0 = s.res0 := by unfold raiseFault; split <;> rfl
@[simp] theorem raiseFault_res1 (c : Cause) (w : CmdWord) (s : State) : (raiseFault c w s).res1 = s.res1 := by unfold raiseFault; split <;> rfl
@[simp] theorem raiseFault_res2 (c : Cause) (w : CmdWord) (s : State) : (raiseFault c w s).res2 = s.res2 := by unfold raiseFault; split <;> rfl
@[simp] theorem raiseFault_fv (c : Cause) (w : CmdWord) (s : State) : (raiseFault c w s).fv = s.fv := by unfold raiseFault; split <;> rfl
@[simp] theorem raiseFault_txh (c : Cause) (w : CmdWord) (s : State) : (raiseFault c w s).txh = s.txh := by unfold raiseFault; split <;> rfl
@[simp] theorem raiseFault_ldrem (c : Cause) (w : CmdWord) (s : State) : (raiseFault c w s).ldrem = s.ldrem := by unfold raiseFault; split <;> rfl
@[simp] theorem raiseFault_resetInHold (c : Cause) (w : CmdWord) (s : State) : (raiseFault c w s).resetInHold = s.resetInHold := by unfold raiseFault; split <;> rfl
@[simp] theorem raiseFault_draws (c : Cause) (w : CmdWord) (s : State) : (raiseFault c w s).draws = s.draws := by unfold raiseFault; split <;> rfl
@[simp] theorem raiseFault_hostQ (c : Cause) (w : CmdWord) (s : State) : (raiseFault c w s).hostQ = s.hostQ := by unfold raiseFault; split <;> rfl
@[simp] theorem raiseFault_txQ (c : Cause) (w : CmdWord) (s : State) : (raiseFault c w s).txQ = s.txQ := by unfold raiseFault; split <;> rfl
@[simp] theorem raiseFault_statusQ (c : Cause) (w : CmdWord) (s : State) : (raiseFault c w s).statusQ = s.statusQ := by unfold raiseFault; split <;> rfl
@[simp] theorem raiseFault_turns (c : Cause) (w : CmdWord) (s : State) : (raiseFault c w s).turns = s.turns := by unfold raiseFault; split <;> rfl
@[simp] theorem raiseFault_txReplies (c : Cause) (w : CmdWord) (s : State) : (raiseFault c w s).txReplies = s.txReplies := by unfold raiseFault; split <;> rfl
@[simp] theorem raiseFault_statusReplies (c : Cause) (w : CmdWord) (s : State) : (raiseFault c w s).statusReplies = s.statusReplies := by unfold raiseFault; split <;> rfl

@[simp] theorem raiseFault_halt (c : Cause) (w : CmdWord) (s : State) : (raiseFault c w s).halt = true := by
  unfold raiseFault; split <;> simp_all

@[simp] theorem raiseFault_fcause (c : Cause) (w : CmdWord) (s : State) :
    (raiseFault c w s).fcause = if s.halt then s.fcause else c := by
  unfold raiseFault; split <;> rfl

@[simp] theorem raiseFault_fcmd (c : Cause) (w : CmdWord) (s : State) :
    (raiseFault c w s).fcmd = if s.halt then s.fcmd else w := by
  unfold raiseFault; split <;> rfl

/-- R232: on a block that already halted, a fault changes nothing. -/
theorem raiseFault_of_halt {c : Cause} {w : CmdWord} {s : State} (h : s.halt = true) : raiseFault c w s = s := by
  simp [raiseFault, h]

/-- R232: the first fault is recorded. -/
theorem raiseFault_of_running {c : Cause} {w : CmdWord} {s : State} (h : s.halt = false) :
    raiseFault c w s = { s with fcause := c, fcmd := w, halt := true } := by
  simp [raiseFault, h]

/-! ### assertReset: the block's state at its reset values, the ports' words kept (R270) -/

@[simp] theorem assertReset_build (s : State) : (assertReset s).build = s.build := rfl
@[simp] theorem assertReset_grid (s : State) : (assertReset s).grid = List.replicate s.build.cells Pixel.black := rfl
@[simp] theorem assertReset_defd (s : State) : (assertReset s).defd = List.replicate s.build.cells false := rfl
@[simp] theorem assertReset_fa (s : State) : (assertReset s).fa = [] := rfl
@[simp] theorem assertReset_res0 (s : State) : (assertReset s).res0 = 0#32 := rfl
@[simp] theorem assertReset_res1 (s : State) : (assertReset s).res1 = 0#32 := rfl
@[simp] theorem assertReset_res2 (s : State) : (assertReset s).res2 = 0#32 := rfl
@[simp] theorem assertReset_fv (s : State) : (assertReset s).fv = false := rfl
@[simp] theorem assertReset_txh (s : State) : (assertReset s).txh = false := rfl
@[simp] theorem assertReset_halt (s : State) : (assertReset s).halt = false := rfl
@[simp] theorem assertReset_ldrem (s : State) : (assertReset s).ldrem = 0 := rfl
@[simp] theorem assertReset_fcause (s : State) : (assertReset s).fcause = Cause.none := rfl
@[simp] theorem assertReset_fcmd (s : State) : (assertReset s).fcmd = 0#64 := rfl
@[simp] theorem assertReset_resetInHold (s : State) : (assertReset s).resetInHold = (s.resetInHold || s.txh) := rfl
@[simp] theorem assertReset_draws (s : State) : (assertReset s).draws = s.draws := rfl
@[simp] theorem assertReset_hostQ (s : State) : (assertReset s).hostQ = s.hostQ := rfl
@[simp] theorem assertReset_txQ (s : State) : (assertReset s).txQ = s.txQ := rfl
@[simp] theorem assertReset_statusQ (s : State) : (assertReset s).statusQ = s.statusQ := rfl
@[simp] theorem assertReset_turns (s : State) : (assertReset s).turns = s.turns := rfl
@[simp] theorem assertReset_txReplies (s : State) : (assertReset s).txReplies = s.txReplies := rfl
@[simp] theorem assertReset_statusReplies (s : State) : (assertReset s).statusReplies = s.statusReplies := rfl

/-! ### resetOf: the values after reset (R270) -/

@[simp] theorem resetOf_build (b : Build) : (State.resetOf b).build = b := rfl
@[simp] theorem resetOf_grid (b : Build) : (State.resetOf b).grid = List.replicate b.cells Pixel.black := rfl
@[simp] theorem resetOf_defd (b : Build) : (State.resetOf b).defd = List.replicate b.cells false := rfl
@[simp] theorem resetOf_fa (b : Build) : (State.resetOf b).fa = [] := rfl
@[simp] theorem resetOf_res0 (b : Build) : (State.resetOf b).res0 = 0#32 := rfl
@[simp] theorem resetOf_res1 (b : Build) : (State.resetOf b).res1 = 0#32 := rfl
@[simp] theorem resetOf_res2 (b : Build) : (State.resetOf b).res2 = 0#32 := rfl
@[simp] theorem resetOf_fv (b : Build) : (State.resetOf b).fv = false := rfl
@[simp] theorem resetOf_txh (b : Build) : (State.resetOf b).txh = false := rfl
@[simp] theorem resetOf_halt (b : Build) : (State.resetOf b).halt = false := rfl
@[simp] theorem resetOf_ldrem (b : Build) : (State.resetOf b).ldrem = 0 := rfl
@[simp] theorem resetOf_fcause (b : Build) : (State.resetOf b).fcause = Cause.none := rfl
@[simp] theorem resetOf_fcmd (b : Build) : (State.resetOf b).fcmd = 0#64 := rfl
@[simp] theorem resetOf_resetInHold (b : Build) : (State.resetOf b).resetInHold = false := rfl
@[simp] theorem resetOf_draws (b : Build) : (State.resetOf b).draws = 0 := rfl
@[simp] theorem resetOf_hostQ (b : Build) : (State.resetOf b).hostQ = [] := rfl
@[simp] theorem resetOf_txQ (b : Build) : (State.resetOf b).txQ = [] := rfl
@[simp] theorem resetOf_statusQ (b : Build) : (State.resetOf b).statusQ = [] := rfl
@[simp] theorem resetOf_turns (b : Build) : (State.resetOf b).turns = [] := rfl
@[simp] theorem resetOf_txReplies (b : Build) : (State.resetOf b).txReplies = [] := rfl
@[simp] theorem resetOf_statusReplies (b : Build) : (State.resetOf b).statusReplies = [] := rfl

end Sys2Proof.Machine
end

