-- ==== Sys2Proof/Laws/Ops.lean ====
section
/-! SUPPORT. The frame's bytes region by region, and the arms of exec by name. -/

namespace Sys2Proof.Machine

/-- An active offset reads FA (R64). -/
theorem frameByte_active {s : State} {o : Nat} (h : o < s.build.activeLen) : s.frameByte o = s.fa.read o := by
  simp [State.frameByte, h]

/-- A padding offset reads 0x00 (R28, R64). -/
theorem frameByte_padding {s : State} {o : Nat} (h : s.build.activeLen ≤ o) (h' : o < s.build.frameLen) :
    s.frameByte o = some 0x00#8 := by
  simp [State.frameByte, h', Nat.not_lt.mpr h]

/-- No byte from FRAME_LEN on (R62). -/
theorem frameByte_beyond {s : State} {o : Nat} (h : s.build.frameLen ≤ o) : s.frameByte o = none := by
  have : s.build.activeLen ≤ o := Nat.le_trans (Nat.le_add_right _ _) h
  simp [State.frameByte, Nat.not_lt.mpr h, Nat.not_lt.mpr this]

/-- The frame depends on the configuration and on FA only. -/
theorem frameByte_congr {s t : State} (hb : t.build = s.build) (hf : t.fa = s.fa) (o : Nat) :
    t.frameByte o = s.frameByte o := by
  simp [State.frameByte, hb, hf]

/-- WRPIX's and PHYSIDX's range check, as R99 states it. -/
theorem inRange_iff (b : Build) (row col : Half) :
    inRange b row col = true ↔ row.toNat < b.height ∧ col.toNat < b.width := by
  simp [inRange]

theorem inRange_eq_false_iff (b : Build) (row col : Half) :
    inRange b row col = false ↔ b.height ≤ row.toNat ∨ b.width ≤ col.toNat := by
  simp [inRange]; omega

/-- Every cell below N is defined exactly when the grid is populated (R160). -/
theorem populated_iff (s : State) : s.populated = true ↔ ∀ k, k < s.build.cells → s.defBit k = true := by
  simp [State.populated]

/-- R160's loops visit exactly the cells of the grid. -/
theorem mem_gridCoords (b : Build) (row col : Nat) :
    (row, col) ∈ gridCoords b ↔ row < b.height ∧ col < b.width := by
  simp [gridCoords]

/-- The cells of row `row` end where the next row begins, inside the grid. -/
theorem row_block_le (b : Build) {row : Nat} (h : row < b.height) : row * b.width + b.width ≤ b.cells := by
  calc row * b.width + b.width = (row + 1) * b.width := by ring
    _ ≤ b.height * b.width := Nat.mul_le_mul_right _ h
    _ = b.cells := by unfold Build.cells; ring

@[simp] theorem exec_nop (s : State) : exec .nop s = execNop s := rfl
@[simp] theorem exec_wrpix (row col : Half) (r g b : Byte) (s : State) :
    exec (.wrpix row col r g b) s = execWrpix row col r g b s := rfl
@[simp] theorem exec_clear (s : State) : exec .clear s = execClear s := rfl
@[simp] theorem exec_loadgrid (s : State) : exec .loadgrid s = execLoadgrid s := rfl
@[simp] theorem exec_beat (r g b : Byte) (s : State) : exec (.beat r g b) s = execBeat r g b s := rfl
@[simp] theorem exec_assemble (s : State) : exec .assemble s = execAssemble s := rfl
@[simp] theorem exec_enc (v : Byte) (s : State) : exec (.enc v) s = execEnc v s := rfl
@[simp] theorem exec_encpix (r g b : Byte) (s : State) : exec (.encpix r g b) s = execEncpix r g b s := rfl
@[simp] theorem exec_physidx (row col : Half) (s : State) : exec (.physidx row col) s = execPhysidx row col s := rfl
@[simp] theorem exec_txAcquire (s : State) : exec .txAcquire s = execTxAcquire s := rfl
@[simp] theorem exec_txRead (o : Word) (s : State) : exec (.txRead o) s = execTxRead o s := rfl
@[simp] theorem exec_txRelease (s : State) : exec .txRelease s = execTxRelease s := rfl
@[simp] theorem exec_sread (i : StatusIdx) (s : State) : exec (.sread i) s = execSread i s := rfl

/-- ASSEMBLE of a populated grid outside a hold (R160). -/
theorem execAssemble_of_populated {s : State} (free : s.txh = false) (full : s.populated = true) :
    execAssemble s = .next { s with fa := assembleFrame s, fv := true } := by
  simp [execAssemble, free, full]

/-- A data beat inside a load (R186). -/
theorem execBeat_of_loading {s : State} (red green blue : Byte) (loading : s.ldrem ≠ 0) :
    execBeat red green blue s =
      .next { s.writeCell s.beatIndex ⟨red, green, blue⟩ with ldrem := s.ldrem - 1 } := by
  simp [execBeat, loading]

end Sys2Proof.Machine
end

