-- ==== Sys2Proof/Laws/PerInstr.lean ====
section
/-! SUPPORT. Statements made per instruction. Family RoundTrip: the decoder of the instruction's port, in the phase that
takes the instruction, reads its encoding back. -/

namespace Sys2Proof.Laws.RoundTrip

/-- Decoding the encoding of `i` gives `i`, every operand as it was. -/
def Statement (i : Instr) : Prop := decode i.isBeat (encode i) = .ok i

theorem nop : Statement .nop := by unfold Statement; decide

theorem wrpix (row col : Half) (red green blue : Byte) : Statement (.wrpix row col red green blue) := by
  simp [Statement, encode, Instr.isBeat, decode, decodeCommand]

theorem clear : Statement .clear := by unfold Statement; decide

theorem loadgrid : Statement .loadgrid := by unfold Statement; decide

theorem beat (red green blue : Byte) : Statement (.beat red green blue) := by
  simp [Statement, encode, Instr.isBeat, decode, decodeBeat]

theorem assemble : Statement .assemble := by unfold Statement; decide

theorem enc (v : Byte) : Statement (.enc v) := by
  simp [Statement, encode, Instr.isBeat, decode, decodeCommand, whenReservedZero]

theorem encpix (red green blue : Byte) : Statement (.encpix red green blue) := by
  simp [Statement, encode, Instr.isBeat, decode, decodeCommand, whenReservedZero]

theorem physidx (row col : Half) : Statement (.physidx row col) := by
  simp [Statement, encode, Instr.isBeat, decode, decodeCommand, whenReservedZero]

theorem txAcquire : Statement .txAcquire := by unfold Statement; decide

theorem txRead (offset : Word) : Statement (.txRead offset) := by
  simp [Statement, encode, decode, decodeTreq]

theorem txRelease : Statement .txRelease := by unfold Statement; decide

theorem sread (idx : StatusIdx) : Statement (.sread idx) := rfl

end Sys2Proof.Laws.RoundTrip
end

