-- ==== Sys2Proof/Laws/Ports.lean ====
section
/-! SUPPORT. Everything one step can do, said once, and running several. -/

namespace Sys2Proof.Machine

/-- Everything a transaction can do: its instruction, nothing (the idle TREQ), or ILLEGAL. -/
theorem perform_cases {pw : PortWord} {s t : State} (h : perform pw s = .next t) :
    (∃ i, decode s.ld pw = .ok i ∧ exec i s = .next t) ∨
    (decode s.ld pw = .error .idle ∧ t = s) ∨
    (∃ r, decode s.ld pw = .error r ∧ r ≠ .idle ∧ t = raiseFault .illegal pw.recorded s) := by
  unfold perform at h
  split at h
  · exact .inl ⟨_, ‹_›, h⟩
  · cases h; exact .inr (.inl ⟨‹_›, rfl⟩)
  · cases h; exact .inr (.inr ⟨_, ‹_›, ‹_›, rfl⟩)

/-- Everything a step can do: nothing, where no turn is left; the next turn passed, where its port has nothing to take;
a transaction of the port whose turn it is, on the state with the turn and the word taken; or reset. -/
theorem step_cases {s t : State} (h : step s = .next t) :
    (s.turns = [] ∧ t = s) ∨
    ∃ turn ts, s.turns = turn :: ts ∧
      ((turn = .reset ∧ t = assertReset { s with turns := ts }) ∨
       (turn ≠ .reset ∧ t = { s with turns := ts }) ∨
       (∃ w rest, turn = .command ∧ s.halt = false ∧ s.hostQ = w :: rest ∧
         perform (.command w) { s with turns := ts, hostQ := rest } = .next t) ∨
       (∃ w rest, turn = .transport ∧ s.txQ = w :: rest ∧
         perform (.transport w) { s with turns := ts, txQ := rest } = .next t) ∨
       (∃ i rest, turn = .status ∧ s.statusQ = i :: rest ∧
         perform (.status i) { s with turns := ts, statusQ := rest } = .next t)) := by
  unfold step takeTurn at h
  split at h
  · cases h; exact .inl ⟨‹_›, rfl⟩
  · rename_i turn ts hts
    refine .inr ⟨turn, ts, hts, ?_⟩
    cases turn with
    | reset => cases h; exact .inl ⟨rfl, rfl⟩
    | command =>
      simp only [serve, serveCommand] at h
      split at h
      · cases h; exact .inr (.inl ⟨by simp, rfl⟩)
      · rename_i running
        split at h
        · cases h; exact .inr (.inl ⟨by simp, rfl⟩)
        · exact .inr (.inr (.inl ⟨_, _, rfl, eq_false_of_ne_true running, ‹_›, h⟩))
    | transport =>
      simp only [serve, serveTransport] at h
      split at h
      · cases h; exact .inr (.inl ⟨by simp, rfl⟩)
      · exact .inr (.inr (.inr (.inl ⟨_, _, rfl, ‹_›, h⟩)))
    | status =>
      simp only [serve, serveStatus] at h
      split at h
      · cases h; exact .inr (.inl ⟨by simp, rfl⟩)
      · exact .inr (.inr (.inr (.inr ⟨_, _, rfl, ‹_›, h⟩)))

/-- On a running block a step that takes a command-port word is that word's transaction. -/
theorem step_command {s : State} {w : CmdWord} {rest : List CmdWord} {ts : List Turn}
    (ht : s.turns = .command :: ts) (hq : s.hostQ = w :: rest) (hh : s.halt = false) :
    step s = perform (.command w) { s with turns := ts, hostQ := rest } := by
  simp [step, takeTurn, serve, serveCommand, ht, hq, hh]

@[simp] theorem execAll_nil (s : State) : execAll [] s = .next s := rfl

theorem execAll_cons_of_next {i : Instr} {is : List Instr} {s t : State} (h : exec i s = .next t) :
    execAll (i :: is) s = execAll is t := by
  simp [execAll, h]

@[simp] theorem runSteps_zero (s : State) : runSteps 0 s = .next s := rfl

theorem runSteps_succ_of_next {n : Nat} {s t : State} (h : step s = .next t) :
    runSteps (n + 1) s = runSteps n t := by
  simp [runSteps, h]

theorem runSteps_add_of_next {m n : Nat} {s t : State} (h : runSteps m s = .next t) :
    runSteps (m + n) s = runSteps n t := by
  induction m generalizing s with
  | zero => cases h; simp
  | succ m ih =>
    rw [Nat.succ_add]
    simp only [runSteps] at h ⊢
    split at h
    · simp_all
    · cases h
    · cases h

end Sys2Proof.Machine
end

