-- ==== Sys2Proof/Tests/Slice0.lean ====
section
/-! SUPPORT. Tests. Expected results come from 95_test_vectors.md (the section is named at each group) and the rules; the
tests `wit_…` show a state and operands that meet a statement's hypotheses. -/

namespace Sys2Proof.Tests
open Sys2Proof Sys2Proof.Machine

/-! ### Builds and states -/

/-- 95 §2's illustrative table. -/
def table : PulseCode := ⟨0x88#8, 0x8E#8, 0xE8#8, 0xEE#8, by decide⟩
/-- W = H = 16, R = 280. -/
def b16 : Build := ⟨16, 16, 280, table, by decide⟩
/-- W = H = 2, R = 4 (L3-3). -/
def b2 : Build := ⟨2, 2, 4, table, by decide⟩
/-- W = 3, H = 2 (95 §3.3). -/
def b32 : Build := ⟨3, 2, 0, table, by decide⟩
def s16 : State := State.resetOf b16
def s2 : State := State.resetOf b2
/-- L3-3 after its four beats. -/
def full2 : State :=
  { s2 with
    grid := [⟨0xFF#8, 0x00#8, 0x00#8⟩, ⟨0x00#8, 0xFF#8, 0x00#8⟩, ⟨0x00#8, 0x00#8, 0xFF#8⟩, ⟨0x01#8, 0x02#8, 0x03#8⟩]
    defd := [true, true, true, true] }
/-- What a next state holds; none for a stop. -/
def after {α : Type} (o : Host.Outcome State Fault Refusal) (f : State → α) : Option α :=
  match o with
  | .next t => some (f t)
  | .fault _ => none
  | .refused _ => none
/-- The next state. -/
def next (o : Host.Outcome State Fault Refusal) : State :=
  match o with
  | .next t => t
  | .fault _ => s2
  | .refused _ => s2
/-- L3-3 after ASSEMBLE. -/
def asm2 : State := next (exec .assemble full2)
def held2 : State := { asm2 with txh := true }
def halted2 : State := { s2 with halt := true, fcause := .range, fcmd := 0x0100100000FFFFFF#64 }

/-! ### WellFormed: each check refuses an ill-formed term -/

theorem test_zero_width_refused : Build.make? 0 16 280 0x88 0x8E 0xE8 0xEE = none := by decide
theorem test_zero_height_refused : Build.make? 16 0 280 0x88 0x8E 0xE8 0xEE = none := by decide
theorem test_wide_grid_refused : Build.make? 65536 1 0 0x88 0x8E 0xE8 0xEE = none := by decide
theorem test_long_frame_refused : Build.make? 1 1 4294967285 0x88 0x8E 0xE8 0xEE = none := by decide
theorem test_longest_frame_accepted : (Build.make? 1 1 4294967284 0x88 0x8E 0xE8 0xEE).isSome = true := by decide
theorem test_equal_codes_refused : Build.make? 16 16 280 0x88 0x8E 0x88 0xEE = none := by decide
theorem test_zero_code_refused : Build.make? 16 16 280 0x88 0x8E 0xE8 0x00 = none := by decide
theorem test_reference_accepted : Build.make? 16 16 280 0x88 0x8E 0xE8 0xEE = some b16 := by decide
theorem test_row_too_wide : (Asm.wrpix 65536 0 0).wellFormed b2 = false := by decide
theorem test_col_too_wide : (Asm.physidx 0 65536).wellFormed b2 = false := by decide
theorem test_colour_too_wide : (Asm.encpix 0x1000000).wellFormed b2 = false := by decide
theorem test_channel_too_wide : (Asm.enc 256).wellFormed b2 = false := by decide
theorem test_offset_too_wide : (Asm.txRead 4294967296).wellFormed b2 = false := by decide
theorem test_index_too_wide : (Asm.sread 16).wellFormed b2 = false := by decide
theorem test_list_too_short : (Asm.loadgridList [1, 2, 3]).wellFormed b2 = false := by decide
theorem test_beat_too_wide : (Asm.beat 0x1000000).wellFormed b2 = false := by decide
theorem test_fill_too_wide : (Asm.fill 0x1000000).wellFormed b2 = false := by decide

/-! ### Decoding: words written out from R91 to R95 (95 §3, §4) -/

theorem test_decode_nop : decodeTableWord 64 0x0000000000000000 = some .nop := by decide
theorem test_decode_wrpix : decodeTableWord 64 0x01000F000F0A0B0C = some (.wrpix 15#16 15#16 10#8 11#8 12#8) := by decide
theorem test_decode_clear : decodeTableWord 64 0x0200000000000000 = some .clear := by decide
theorem test_decode_loadgrid : decodeTableWord 64 0x0300000000000000 = some .loadgrid := by decide
theorem test_decode_beat : decodeTableWord 64 0x000000000000FF00 = some (.beat 0x00#8 0xFF#8 0x00#8) := by decide
theorem test_decode_assemble : decodeTableWord 64 0x0400000000000000 = some .assemble := by decide
theorem test_decode_enc : decodeTableWord 64 0x050000000000001B = some (.enc 0x1B#8) := by decide
theorem test_decode_encpix : decodeTableWord 64 0x0600000000123456 = some (.encpix 0x12#8 0x34#8 0x56#8) := by decide
theorem test_decode_physidx : decodeTableWord 64 0x0700020003000000 = some (.physidx 2#16 3#16) := by decide
theorem test_decode_tx_acquire : decodeTableWord 40 0x100000000 = some .txAcquire := by decide
theorem test_decode_tx_read : decodeTableWord 40 0x200000BFF = some (.txRead 3071#32) := by decide
theorem test_decode_tx_release : decodeTableWord 40 0x300000000 = some .txRelease := by decide
theorem test_decode_sread : decodeTableWord 8 0x9 = some (.sread 9#4) := by decide
theorem test_decode_enc_reserved : decodeCommand 0x0500000000000100 = .error .reservedBits := rfl
theorem test_decode_physidx_reserved : decodeCommand 0x0700000000000001 = .error .reservedBits := rfl
theorem test_decode_undefined : decodeCommand 0xFF00000000000000 = .error .undefinedOpcode := rfl
theorem test_decode_command_as_beat : decodeBeat 0x0200000000000000 = .error .reservedBeatBits := rfl
theorem test_decode_idle : decodeTreq 0x0000000FF = .error .idle := rfl
theorem test_decode_acquire_offset : decodeTreq 0x100000005 = .error .reservedOffset := rfl
theorem test_encode_wrpix : encode (.wrpix 5#16 5#16 0xFF#8 0xFF#8 0xFF#8) = .command 0x0100050005FFFFFF := by decide

/-! ### Assembly text (R102, R103; 95 §3, §4) -/

theorem test_asm_wrpix : (AsmText.assemble b16 "wrpix 1, 0, 0xFF0000 ; red").toOption =
    some [.command 0x0100010000FF0000] := by decide
theorem test_asm_tx_read : (AsmText.assemble b16 "TX.READ 3352").toOption = some [.transport 0x200000D18] := by decide
theorem test_asm_sread_name : (AsmText.assemble b16 "SREAD CFG_DIM").toOption = some [.status 7] := by decide
theorem test_asm_fill : (AsmText.assemble b2 "FILL 0x010203").toOption =
    some [.command 0x0300000000000000, .command 0x10203, .command 0x10203, .command 0x10203, .command 0x10203] := by decide
theorem test_asm_too_wide : (AsmText.assemble b16 "ENC 0x100").toOption = none := by decide
theorem test_asm_blank : (AsmText.assemble b16 "  ; nothing").toOption = some [] := by decide

/-! ### ENC and ENCPIX (95 §3.1, §3.2) -/

theorem test_enc_order : after (exec (.enc 0x1B#8) s2) (·.res0) = some 0x888EE8EE#32 := by decide
theorem test_enc_top_bit : after (exec (.enc 0x80#8) s2) (·.res0) = some 0xE8888888#32 := by decide
theorem test_encpix_order : after (exec (.encpix 0x12#8 0x34#8 0x56#8) s2) (fun t => (t.res0, t.res1, t.res2)) =
    some (0x88EE8E88#32, 0x888E88E8#32, 0x8E8E8EE8#32) := by decide

/-! ### PHYSIDX (95 §3.3) -/

theorem test_physidx_even : after (exec (.physidx 0#16 0#16) s16) (fun t => (t.res0, t.res1)) = some (15#32, 180#32) := by
  decide
theorem test_physidx_last : after (exec (.physidx 15#16 15#16) s16) (fun t => (t.res0, t.res1)) =
    some (255#32, 3060#32) := by decide
theorem test_physidx_row_end : after (exec (.physidx 16#16 0#16) s16)
    (fun t => (t.res0, t.fcause, t.statusReg 2#4, t.statusReg 3#4)) = some (0#32, .range, 0x07001000#32, 0#32) := by decide
theorem test_physidx_col_end : after (exec (.physidx 0#16 16#16) s16) (·.fcause) = some .range := by decide
theorem test_phys_rectangular : [phys b32 0 0, phys b32 0 2, phys b32 1 0, phys b32 1 2] = [2, 0, 3, 5] := by decide

/-! ### The grid (95 §3.4) -/

theorem test_wrpix_last_cell : after (exec (.wrpix 15#16 15#16 10#8 11#8 12#8) s16)
    (fun t => (t.cell 255, t.defBit 255, t.defBit 254)) = some (⟨10#8, 11#8, 12#8⟩, true, false) := by decide
theorem test_wrpix_col_end : after (exec (.wrpix 0#16 16#16 0#8 0#8 0#8) s16) (fun t => (t.fcause, t.defBit 16)) =
    some (.range, false) := by decide
theorem test_clear : after (exec .clear s2) (fun t => (t.populated, t.cell 3, t.fv)) =
    some (true, ⟨0#8, 0#8, 0#8⟩, false) := by decide
theorem test_loadgrid : after (exec .loadgrid s16) (fun t => (t.ldrem, t.statusWord)) = some (256, 0x00000008#32) := by
  decide
theorem test_beat_last : after (exec (.beat 0#8 0#8 1#8) { s16 with ldrem := 1 })
    (fun t => (t.cell 255, t.ldrem, t.ld)) = some (⟨0#8, 0#8, 1#8⟩, 0, false) := by decide
theorem test_beat_first : after (exec (.beat 0xFF#8 0#8 0#8) { s16 with ldrem := 256 })
    (fun t => (t.cell 0, t.defBit 0, t.ldrem)) = some (⟨0xFF#8, 0#8, 0#8⟩, true, 255) := by decide

/-! ### ASSEMBLE (95 §3.5, L3-3) -/

theorem test_assemble_bytes : [0, 3, 4, 12, 16, 20, 32, 39, 43, 47, 48, 51].map asm2.frameByte =
    [0xEE#8, 0xEE#8, 0x88#8, 0x88#8, 0xEE#8, 0x88#8, 0xEE#8, 0xE8#8, 0x8E#8, 0xEE#8, 0x00#8, 0x00#8].map some := by decide
theorem test_assemble_unpopulated : after (exec .assemble s16) (fun t => (t.fcause, t.fcmd, t.fv)) =
    some (.undefPixel, 0x0400000000000000#64, false) := by decide

/-! ### The transport port (95 §3.6) -/

theorem test_acquire : after (exec .txAcquire s2) (·.statusWord) = some 0x00000002#32 := by decide
theorem test_acquire_twice : after (exec .txAcquire held2) (fun t => (t.fcause, t.statusReg 2#4, t.statusReg 3#4)) =
    some (.txProtocol, 1#32, 0#32) := by decide
theorem test_read_last_active : after (exec (.txRead 47#32) held2) (fun t => (t.txReplies, t.fcause)) =
    some ([0xEE#8], .none) := by decide
theorem test_read_end : after (exec (.txRead 52#32) held2) (fun t => (t.txReplies, t.fcause, t.statusReg 3#4)) =
    some ([0x00#8], .txRange, 52#32) := by decide
theorem test_read_unheld : after (exec (.txRead 0#32) s2) (fun t => (t.txReplies, t.fcause, t.statusReg 2#4)) =
    some ([0x00#8], .txProtocol, 2#32) := by decide
theorem test_release : after (exec .txRelease held2) (·.txh) = some false := by decide
theorem test_release_unheld_while_halted : after (exec .txRelease halted2) (fun t => decide (t = halted2)) = some true := by
  decide

/-! ### The status port and NOP (95 §3.7) -/

theorem test_sread_dim : after (exec (.sread 7#4) s16) (·.statusReplies) = some [0x00100010#32] := by decide
theorem test_sread_pcode : after (exec (.sread 9#4) s16) (·.statusReplies) = some [0xEEE88E88#32] := by decide
theorem test_nop : after (exec .nop s2) (fun t => decide (t = s2)) = some true := by decide

/-! ### Steps: placed words, illegal words, stalls, reset (95 §3, §4) -/

theorem test_step_illegal : after (step { s2 with hostQ := [0x0800000000000000#64], turns := [.command] })
    (fun t => (t.fcause, t.fcmd, t.halt)) = some (.illegal, 0x0800000000000000#64, true) := by decide
theorem test_step_clear_during_load :
    after (step { s2 with ldrem := 2, hostQ := [0x0200000000000000#64], turns := [.command] })
      (fun t => (t.fcause, t.ldrem, t.statusWord)) = some (.illegal, 2, 0x0000000C#32) := by decide
theorem test_step_stall : after (step { halted2 with hostQ := [0x0200000000000000#64], turns := [.command] })
    (fun t => (t.hostQ, t.defd)) = some ([0x0200000000000000#64], [false, false, false, false]) := by decide
theorem test_step_reset : after (step { held2 with turns := [.reset] })
    (fun t => (t.fv, t.txh, t.frameByte 0, t.resetInHold, t.defBit 0)) = some (false, false, none, true, false) := by decide
theorem test_placed_beat : after (step (s2.withFetchWord 64 0x0000000000FF0000)) (fun t => (t.cell 0, t.ldrem)) =
    some (⟨0xFF#8, 0#8, 0#8⟩, 3) := by decide
theorem test_placed_read : after (step (held2.withFetchWord 40 0x200000000)) (·.txReplies) = some [0xEE#8] := by decide
theorem test_placed_wrpix_from_reset : after (step (State.reset.withFetchWord 64 0x0100010000FF0000))
    (fun t => (t.cell 16, t.defBit 16)) = some (⟨0xFF#8, 0#8, 0#8⟩, true) := by decide

/-! ### Witnesses: states and operands that meet the hypotheses of the statements, at the bounds of each clause -/

theorem wit_decodeReadsBack_command : (match encode (.wrpix 65535#16 65535#16 255#8 255#8 255#8) with
    | .command _ => false = Instr.isBeat (.wrpix 65535#16 65535#16 255#8 255#8 255#8)
    | .transport _ => True | .status _ => True) := rfl
theorem wit_decodeReadsBack_beat : (match encode (.beat 255#8 255#8 255#8) with
    | .command _ => true = Instr.isBeat (.beat 255#8 255#8 255#8) | .transport _ => True | .status _ => True) := rfl
theorem wit_everyDecodedWord : decode true (.command 0xFFFFFF#64) = .ok (.beat 255#8 255#8 255#8) ∧
    decode false (.transport 0x2FFFFFFFF#34) = .ok (.txRead 0xFFFFFFFF#32) ∧ decode true (.status 15#4) = .ok (.sread 15#4) :=
  ⟨rfl, rfl, rfl⟩
theorem wit_commandTable : (⟨"ENC", 0x0500000000000000#64, 0xFFFFFFFFFFFFFF00#64⟩ : CmdRow) ∈ commandTable ∧
    CmdRow.selects ⟨"ENC", 0x0500000000000000#64, 0xFFFFFFFFFFFFFF00#64⟩ 0x05000000000000FF#64 = true ∧
    decodeCommand 0x05000000000000FF#64 = .ok (.enc 255#8) := ⟨by decide, by decide, rfl⟩
theorem wit_requestTable : (⟨"TX_READ", 0x200000000#34, 0x300000000#34⟩ : ReqRow) ∈ requestTable ∧
    ReqRow.selects ⟨"TX_READ", 0x200000000#34, 0x300000000#34⟩ 0x2FFFFFFFF#34 = true ∧
    decodeTreq 0x2FFFFFFFF#34 = .ok (.txRead 0xFFFFFFFF#32) := ⟨by decide, by decide, rfl⟩
/-- One HOST word offered, its port's turn. -/
def offer (s : State) (w : CmdWord) : State := { s with hostQ := [w], turns := [.command] }
/-- One TRANSPORT request offered, its port's turn. -/
def offerTx (s : State) (w : ReqWord) : State := { s with txQ := [w], turns := [.transport] }
theorem wit_commandPort_halted : (offer halted2 0#64).halt = true ∧ (offer halted2 0#64).turns = [.command] ∧
    (offer halted2 0#64).hostQ = [0#64] := by decide
theorem wit_commandPort_beat : (offer { s2 with ldrem := 1 } 0xFFFFFF#64).halt = false ∧
    0 < (offer { s2 with ldrem := 1 } 0xFFFFFF#64).ldrem ∧ (decodeBeat 0xFFFFFF#64).isOk = true ∧
    (decodeBeat 0x1000000#64).isOk = false := by decide
theorem wit_commandPort_command : (offer s2 0#64).halt = false ∧ (offer s2 0#64).ldrem = 0 ∧
    (decodeCommand 0#64).isOk = true ∧ (decodeCommand 1#64).isOk = false := by decide
theorem wit_transportPort : (offerTx halted2 0x200000000#34).turns = [.transport] ∧
    (offerTx halted2 0x200000000#34).txQ = [0x200000000#34] ∧ (decodeTreq 0x200000000#34).isOk = true ∧
    decodeTreq 5#34 = .error .idle ∧ decodeTreq 0x300000001#34 = .error .reservedOffset :=
  ⟨by decide, by decide, by decide, rfl, rfl⟩
theorem wit_statusPort : ({ s2 with statusQ := [15#4], turns := [.status] } : State).turns = [.status] ∧
    ({ s2 with statusQ := [15#4], turns := [.status] } : State).statusQ = [15#4] := by decide
theorem wit_idle : s2.turns = [] ∧ s2.hostQ = [] ∧ s2.txQ = [] ∧ s2.statusQ = [] ∧
    ({ s2 with turns := [.command] } : State).turns = [.command] ∧
    ({ s2 with turns := [.transport] } : State).turns = [.transport] ∧
    ({ s2 with turns := [.status] } : State).turns = [.status] := by decide
theorem wit_illegalWord_command : (offer s2 0x0500000000000100#64).ldrem = 0 ∧
    (∀ r ∈ commandTable, r.selects 0x0500000000000100#64 = false) := by decide
theorem wit_illegalWord_beat : 0 < (offer { s2 with ldrem := 4 } 0x1000000#64).ldrem ∧
    (0x1000000#64).extractLsb' 24 40 ≠ 0#40 := by decide
theorem wit_placedWord : decodeTableWord 64 0xFFFFFF = some (.beat 255#8 255#8 255#8) ∧
    decodeTableWord 8 15 = some (.sread 15#4) ∧ decodeTableWord 40 0x2FFFFFFFF = some (.txRead 0xFFFFFFFF#32) := by decide
theorem wit_firstFault : s2.halt = false ∧ halted2.halt = true := by decide
theorem wit_faultsExactly : expectedCause .assemble s2 = .undefPixel ∧ expectedCause .assemble full2 = .none ∧
    expectedCause .assemble { s2 with txh := true } = .txBusy ∧ s2.halt = false ∧ full2.halt = false := by decide
theorem wit_haltedBlock : (offer halted2 0#64).halt = true ∧ (offer halted2 0#64).turns = [.command] ∧
    (offerTx halted2 0x100000000#34).turns = [.transport] ∧ decodeTreq 0x100000000#34 = .ok .txAcquire ∧
    Turn.command ≠ .reset ∧ Turn.transport ≠ .reset ∧ Turn.status ≠ .reset := ⟨by decide, by decide, by decide, rfl, by decide, by decide, by decide⟩
/-- The state after L3-3's ASSEMBLE meets the invariant. -/
theorem wit_blockInv : BlockInv asm2 where
  grid_length := by decide
  defd_length := by decide
  fa_wf := by decide
  fa_active := by
    intro a ha
    have h48 : 48 ≤ a := ha
    have hread : ∀ m : Memory, m.all (fun c => decide (c.1 < 48)) = true → m.read a = none := by
      intro m
      induction m with
      | nil => intro _; rfl
      | cons c m ih =>
        intro h
        simp only [List.all_cons, Bool.and_eq_true, decide_eq_true_eq] at h
        have : c.1 ≠ a := by omega
        simp [Memory.read, this, ih h.2]
    exact hread _ (by decide)
  fa_empty := by decide
  fa_codes := by decide
  ldrem_le := by decide
  halt_cause := by decide
  cause_none := by decide
  reset_in_hold := by decide
theorem wit_onlyResetClears : asm2.turns.head? ≠ some .reset ∧ asm2.defBit 3 = true ∧ asm2.fv = true ∧
    asm2.fa.read 47 ≠ none ∧ (after (step asm2) (·.fv)) = some true := by decide
theorem wit_reset : ({ held2 with turns := [.reset] } : State).turns = [.reset] ∧
    ({ held2 with turns := [.reset] } : State).txh = true := by decide
theorem wit_resetInHold : ({ s2 with resetInHold := true } : State).txh = false ∧
    ({ s2 with resetInHold := true } : State).resetInHold = true ∧
    (after (exec .txAcquire { s2 with resetInHold := true }) (·.resetInHold)) = some false := by decide
theorem wit_enc_reserved : (0x0500000000000100#64).extractLsb' 56 8 = 0x05#8 ∧
    (0x0500000000000100#64).extractLsb' 8 48 ≠ 0#48 := by decide
theorem wit_encpix_reserved : (0x0600000100000000#64).extractLsb' 56 8 = 0x06#8 ∧
    (0x0600000100000000#64).extractLsb' 24 32 ≠ 0#32 := by decide
theorem wit_roundTrip : table.dec 0xEE#8 = some 3#2 ∧ encChannel table 255#8 = encChannel table 255#8 := by decide
theorem wit_physidx_bounds : (15#16).toNat < s16.build.height ∧ (15#16).toNat < s16.build.width ∧
    s16.build.height ≤ (16#16).toNat ∧ s16.build.width ≤ (16#16).toNat := by decide
theorem wit_physidx_reserved : (0x0700000000000001#64).extractLsb' 56 8 = 0x07#8 ∧
    (0x0700000000000001#64).extractLsb' 0 24 ≠ 0#24 := by decide
theorem wit_serpentine : 1 < b2.height ∧ 1 < b2.width ∧ 3 < b2.cells ∧ 0 + 1 < b2.height ∧
    (⟨1, 3, 0, table, by decide⟩ : Build).width = 1 := by decide
theorem wit_wrpix : s16.grid.length = s16.build.cells ∧ s16.defd.length = s16.build.cells := by
  simp [s16]
theorem wit_clear_reserved : (0x0200000000000001#64).extractLsb' 56 8 = 0x02#8 ∧
    (0x0200000000000001#64).extractLsb' 0 56 ≠ 0#56 := by decide
theorem wit_loadgrid_reserved : (0x0380000000000000#64).extractLsb' 56 8 = 0x03#8 ∧
    (0x0380000000000000#64).extractLsb' 0 56 ≠ 0#56 := by decide
theorem wit_beat : 0 < ({ s2 with ldrem := 4 } : State).ldrem ∧ ({ s2 with ldrem := 4 } : State).ldrem ≤ s2.build.cells ∧
    0 < ({ s2 with ldrem := 1 } : State).ldrem ∧ s2.grid.length = s2.build.cells ∧ s2.defd.length = s2.build.cells ∧
    (0x1000000#64).extractLsb' 24 40 ≠ 0#40 := by decide
theorem wit_beat_refused : (offer { s2 with ldrem := 1 } 0x1000000#64).turns = [.command] ∧
    (offer { s2 with ldrem := 1 } 0x1000000#64).hostQ = [0x1000000#64] ∧
    (offer { s2 with ldrem := 1 } 0x1000000#64).halt = false ∧ 0 < (offer { s2 with ldrem := 1 } 0x1000000#64).ldrem ∧
    (0x1000000#64).extractLsb' 24 40 ≠ 0#40 := by decide
theorem wit_load : full2.grid.length = s2.build.cells ∧ s2.grid.length = s2.build.cells := by decide
theorem wit_assemble : full2.fa.wf = true ∧ full2.txh = false ∧ full2.populated = true ∧
    asm2.fa.wf = true ∧ asm2.txh = false ∧ asm2.populated = true := by decide
theorem wit_assembleFaults : held2.txh = true ∧ s2.txh = false ∧ 3 < s2.build.cells ∧ s2.defBit 3 = false ∧
    (0x0400000000000001#64).extractLsb' 56 8 = 0x04#8 ∧ (0x0400000000000001#64).extractLsb' 0 56 ≠ 0#56 := by decide
theorem wit_onlyAssemble : after (exec .clear asm2) (fun t => decide (t.fa = asm2.fa)) = some true ∧
    Instr.clear ≠ .assemble := by decide
theorem wit_frameStable : (offer held2 0x0400000000000000#64).txh = true ∧
    (offer held2 0x0400000000000000#64).turns.head? ≠ some .reset ∧
    after (step (offer held2 0x0400000000000000#64)) (·.fcause) = some .txBusy := by decide
theorem wit_padding : 12 * (b2.width * b2.height) ≤ 48 ∧ 51 < 12 * (b2.width * b2.height) + b2.padLen := by decide
theorem wit_sread : ({ s2 with ldrem := 4 } : State).ldrem ≤ s2.build.cells ∧ 11#4 ≤ (15#4 : StatusIdx) := by decide
theorem wit_nop_reserved : (1#64).extractLsb' 56 8 = 0x00#8 ∧ (1#64 : CmdWord) ≠ 0#64 := by decide
theorem wit_acquire : s2.txh = false ∧ held2.txh = true ∧ (0x100000005#34).extractLsb' 32 2 = 1#2 ∧
    (0x100000005#34).extractLsb' 0 32 ≠ 0#32 := by decide
theorem wit_read : held2.txh = true ∧ held2.fv = true ∧ (47#32).toNat < held2.build.activeLen ∧
    held2.build.activeLen ≤ (48#32).toNat ∧ (51#32).toNat < held2.build.frameLen ∧ held2.build.frameLen ≤ (52#32).toNat ∧
    ({ s2 with txh := true } : State).fv = false ∧ s2.txh = false ∧ s2.resetInHold = false := by decide
theorem wit_release : held2.txh = true ∧ s2.txh = false ∧ (0x300000001#34).extractLsb' 32 2 = 3#2 ∧
    (0x300000001#34).extractLsb' 0 32 ≠ 0#32 ∧ held2.populated = true := by decide
theorem wit_dutiful : asm2.mayAssemble = true ∧ asm2.mayAcquire = true ∧ asm2.halt = false ∧ held2.halt = false := by decide
/-- HOST's render cycle of L3-3, offered right after reset. -/
def cycle2 : State :=
  { s2 with
    hostQ := [0x0300000000000000#64, 0xFF0000#64, 0x00FF00#64, 0x0000FF#64, 0x010203#64, 0x0400000000000000#64]
    turns := List.replicate 6 .command }
theorem wit_renderCycle : cycle2.halt = false ∧ cycle2.ldrem = 0 ∧ cycle2.txh = false ∧
    cycle2.grid.length = cycle2.build.cells ∧ cycle2.defd.length = cycle2.build.cells ∧
    full2.grid.length = cycle2.build.cells ∧
    cycle2.hostQ = 0x0300000000000000#64 ::
      (full2.grid.map (fun c => 0#40 ++ c.red ++ c.green ++ c.blue) ++ 0x0400000000000000#64 :: []) ∧
    cycle2.turns = List.replicate (cycle2.build.cells + 2) .command ++ [] := by decide
theorem wit_transfer : asm2.txh = false ∧ asm2.fv = true := by decide
theorem wit_onlyNamed : (Instr.enc 0#8).mnemonic ∉ ["ENCPIX", "PHYSIDX"] ∧
    after (exec (.enc 0#8) s2) (·.res1) = some 0#32 := by decide
theorem wit_unwritten : SameButUnwritten s2 { s2 with grid := full2.grid } where
  rest := rfl
  length := by decide
  cells := by
    intro k hk
    rw [show s2.defBit k = false by
      simp only [State.defBit, s2, resetOf_defd, List.getD_eq_getElem?_getD, List.getElem?_replicate]
      split <;> rfl] at hk
    cases hk
theorem wit_assembler_refused : ((Asm.wrpix 65536 0 0).words b2).toOption = none ∧
    ((Asm.wrpix 0 65536 0).words b2).toOption = none ∧ ((Asm.wrpix 0 0 0x1000000).words b2).toOption = none ∧
    ((Asm.physidx 0 65536).words b2).toOption = none ∧ ((Asm.beat 0x1000000).words b2).toOption = none ∧
    ((Asm.encpix 0x1000000).words b2).toOption = none ∧ ((Asm.fill 0x1000000).words b2).toOption = none ∧
    ((Asm.loadgridList [0, 0, 0, 0x1000000]).words b2).toOption = none ∧
    ((Asm.enc 256).words b2).toOption = none ∧ ((Asm.txRead 4294967296).words b2).toOption = none ∧
    ((Asm.sread 16).words b2).toOption = none := by decide
theorem wit_assembler_held : ((Asm.wrpix 65535 65535 0xFFFFFF).words b2).toOption = some [.command 0x01FFFFFFFFFFFFFF] ∧
    ((Asm.physidx 65535 65535).words b2).toOption = some [.command 0x07FFFFFFFF000000] ∧
    ((Asm.beat 0xFFFFFF).words b2).toOption = some [.command 0xFFFFFF] ∧
    ((Asm.encpix 0xFFFFFF).words b2).toOption = some [.command 0x0600000000FFFFFF] ∧
    ((Asm.enc 255).words b2).toOption = some [.command 0x05000000000000FF] ∧
    ((Asm.txRead 4294967295).words b2).toOption = some [.transport 0x2FFFFFFFF] ∧
    ((Asm.sread 15).words b2).toOption = some [.status 15] ∧
    ((Asm.loadgridList [0, 0, 0, 0xFFFFFF]).words b2).toOption =
      some [.command 0x0300000000000000, .command 0, .command 0, .command 0, .command 0xFFFFFF] := by decide
theorem wit_pseudo : [1, 2, 3].length ≠ b2.cells ∧ [0, 1, 2, 16777215].length = b2.cells ∧
    ∀ c ∈ [0, 1, 2, 16777215], c < 16777216 := by decide
theorem wit_config : Build.make? 16 16 280 0x88 0x8E 0xE8 0xEE = some b16 := by decide

end Sys2Proof.Tests
end

section
/-! Configurations (R6, R7, R8): what the two legality checks and `Build.make?` say, as propositions. -/

namespace Sys2Proof

/-- R7: a legal table has four pairwise distinct codes, none of them zero. -/
theorem PulseCode.legal_iff (p0 p1 p2 p3 : Byte) : PulseCode.legal p0 p1 p2 p3 = true ↔
    [p0, p1, p2, p3].Pairwise (· ≠ ·) ∧ ∀ p ∈ [p0, p1, p2, p3], p ≠ 0x00#8 := by
  simp only [PulseCode.legal, Bool.and_eq_true, bne_iff_ne, List.pairwise_cons, List.Pairwise.nil, List.forall_mem_cons]
  tauto

/-- R6, R8: a legal grid has both dimensions in 1 .. 65535 and a frame of at most 2^32 bytes. -/
theorem Build.legal_iff (W H R : Nat) : Build.legal W H R = true ↔
    1 ≤ W ∧ W ≤ 65535 ∧ 1 ≤ H ∧ H ≤ 65535 ∧ 12 * (W * H) + R ≤ 2 ^ 32 := by
  simp [Build.legal, and_assoc]

/-- A block is made exactly of a legal grid and a legal pulse-code table. -/
theorem Build.isSome_make?_iff (W H R : Nat) (p0 p1 p2 p3 : Byte) :
    (Build.make? W H R p0 p1 p2 p3).isSome = true ↔
      Build.legal W H R = true ∧ PulseCode.legal p0 p1 p2 p3 = true := by
  unfold Build.make?
  split
  case isTrue hp => split <;> simp [*]
  case isFalse hp => simp [hp]

/-- A block that is made carries the numbers and the codes it was made of. -/
theorem Build.parameters_of_make? {W H R : Nat} {p0 p1 p2 p3 : Byte} {b : Build}
    (made : Build.make? W H R p0 p1 p2 p3 = some b) :
    b.width = W ∧ b.height = H ∧ b.padLen = R ∧
      b.pulse.p0 = p0 ∧ b.pulse.p1 = p1 ∧ b.pulse.p2 = p2 ∧ b.pulse.p3 = p3 := by
  simp only [Build.make?, Option.dite_none_right_eq_some] at made
  obtain ⟨hp, hb, made⟩ := made
  cases made
  exact ⟨rfl, rfl, rfl, rfl, rfl, rfl, rfl⟩

/-- Settles O54: the two legality checks are R6 to R8, and a block carries its parameters. -/
theorem onlyLegalConfigurationsMakeABlock : Obligations.OnlyLegalConfigurationsMakeABlock := by
  unfold Obligations.OnlyLegalConfigurationsMakeABlock
  constructor
  · intro W H R p0 p1 p2 p3
    rw [Build.isSome_make?_iff, Build.legal_iff, PulseCode.legal_iff]
  · intro W H R p0 p1 p2 p3 b made
    exact Build.parameters_of_make? made

end Sys2Proof
end

section
/-! The serpentine map on the grid (R140, R141): `phys` and `physInv` undo each other. -/

namespace Sys2Proof.Machine

/-- The cell at a physical index below N lies in the grid. -/
theorem physInv_lt (b : Build) {p : Nat} (hp : p < b.cells) :
    (physInv b p).1 < b.height ∧ (physInv b p).2 < b.width := by
  have hw : 0 < b.width := b.bounds.1
  have hmod := Nat.mod_lt p hw
  refine ⟨Nat.div_lt_of_lt_mul hp, ?_⟩
  simp only [physInv]
  split <;> omega

/-- The physical index of the cell at index `p` is `p`. -/
theorem phys_physInv (b : Build) (p : Nat) : phys b (physInv b p).1 (physInv b p).2 = p := by
  have hmod := Nat.mod_lt p (show 0 < b.width from b.bounds.1)
  have hdiv := Nat.div_add_mod' p b.width
  simp only [phys, physInv]
  split <;> omega

/-- The cell at the physical index of a cell is that cell. -/
theorem physInv_phys (b : Build) (row : Nat) {col : Nat} (hcol : col < b.width) :
    physInv b (phys b row col) = (row, col) := by
  have hw : 0 < b.width := b.bounds.1
  have divmod : ∀ c, c < b.width → (row * b.width + c) / b.width = row ∧ (row * b.width + c) % b.width = c := by
    intro c hc
    rw [Nat.mul_comm, Nat.mul_add_div hw, Nat.mul_add_mod, Nat.div_eq_of_lt hc, Nat.mod_eq_of_lt hc]
    exact ⟨rfl, rfl⟩
  by_cases odd : row % 2 = 1
  · obtain ⟨hdiv, hmod⟩ := divmod col hcol
    simp [phys, physInv, odd, hdiv, hmod]
  · obtain ⟨hdiv, hmod⟩ := divmod (b.width - 1 - col) (by omega)
    simp only [phys, physInv, odd, if_false, hdiv, hmod, Prod.mk.injEq, true_and]
    omega

end Sys2Proof.Machine
end

section
/-! The frame that ASSEMBLE writes (R160, R161), byte by byte. -/

namespace Sys2Proof.Machine

/-- Byte `j` of the code of the cell at physical index `p`: green first, most significant bits first (R121). -/
def State.codeByte (s : State) (p j : Nat) : Byte :=
  (encPixel s.build.pulse (s.cell ((physInv s.build p).1 * s.build.width + (physInv s.build p).2))).extractLsb'
    (8 * (11 - j)) 8

/-- One turn of R160's loops keeps the canonical form. -/
theorem wf_assembleCell (s : State) {m : Memory} (hm : m.wf = true) (rc : Nat × Nat) :
    (assembleCell s m rc).wf = true :=
  wf_memWrite hm _ _ _

/-- One turn of the loops writes the twelve bytes of its own cell and no byte of another. -/
theorem read_assembleCell (s : State) {m : Memory} (hm : m.wf = true) {rc : Nat × Nat} (hcol : rc.2 < s.build.width)
    (p : Nat) {j : Nat} (hj : j < 12) :
    (assembleCell s m rc).read (12 * p + j) =
      if physInv s.build p = rc then some (s.codeByte p j) else m.read (12 * p + j) := by
  rw [assembleCell, read_memWrite hm]
  by_cases here : physInv s.build p = rc
  · have hp : phys s.build rc.1 rc.2 = p := by rw [← here, phys_physInv]
    rw [if_pos here, if_pos (by omega), hp, Nat.add_sub_cancel_left, ← here]
    rfl
  · have hp : phys s.build rc.1 rc.2 ≠ p := by
      rintro rfl
      exact here (physInv_phys s.build rc.1 hcol)
    rw [if_neg here, if_neg (by omega)]

/-- The loops over some cells of the grid write the bytes of these cells and no others. -/
theorem read_foldl_assembleCell (s : State) {cells : List (Nat × Nat)} (hcol : ∀ rc ∈ cells, rc.2 < s.build.width)
    {m : Memory} (hm : m.wf = true) (p : Nat) {j : Nat} (hj : j < 12) :
    (cells.foldl (assembleCell s) m).read (12 * p + j) =
      if physInv s.build p ∈ cells then some (s.codeByte p j) else m.read (12 * p + j) := by
  induction cells generalizing m with
  | nil => simp
  | cons rc cells ih =>
    obtain ⟨hrc, hcells⟩ := List.forall_mem_cons.mp hcol
    rw [List.foldl_cons, ih hcells (wf_assembleCell s hm rc), read_assembleCell s hm hrc p hj]
    by_cases later : physInv s.build p ∈ cells <;> simp [later]

/-- R161 by physical index: byte `j` of the p-th pixel of the assembled frame. -/
theorem read_assembleFrame {s : State} (hfa : s.fa.wf = true) {p j : Nat} (hp : p < s.build.cells) (hj : j < 12) :
    (assembleFrame s).read (12 * p + j) = some (s.codeByte p j) := by
  have hcol : ∀ rc ∈ gridCoords s.build, rc.2 < s.build.width := fun rc hrc =>
    ((mem_gridCoords _ rc.1 rc.2).mp hrc).2
  have visited : physInv s.build p ∈ gridCoords s.build := (mem_gridCoords _ _ _).mpr (physInv_lt s.build hp)
  rw [assembleFrame, read_foldl_assembleCell s hcol hfa p hj, if_pos visited]

/-- After ASSEMBLE the frame shows byte `j` of the p-th pixel at offset 12p + j. -/
theorem frameByte_assembled {s : State} (hfa : s.fa.wf = true) {p j : Nat} (hp : p < s.build.cells) (hj : j < 12) :
    ({ s with fa := assembleFrame s, fv := true } : State).frameByte (12 * p + j) = some (s.codeByte p j) := by
  rw [frameByte_active]
  · exact read_assembleFrame hfa hp hj
  · show 12 * p + j < 12 * s.build.cells
    omega

end Sys2Proof.Machine
end

section
/-! `MemRead` (R11) puts the bytes together again, the first one most significant. -/

namespace Sys2Proof.Machine

/-- A list of reads that all return a value returns the list of the values. -/
theorem mapM_eq_some_map {α β : Type} {f : α → Option β} {g : α → β} {l : List α} (h : ∀ a ∈ l, f a = some (g a)) :
    l.mapM f = some (l.map g) := by
  induction l with
  | nil => rfl
  | cons a l ih =>
    obtain ⟨ha, hl⟩ := List.forall_mem_cons.mp h
    simp [List.mapM_cons, ha, ih hl]

/-- The first `k` bytes of a value of `n` bytes, put together big-endian, are its high `k` bytes. -/
theorem foldl_bytes_eq_div {n : Nat} (v : BitVec (8 * n)) {k : Nat} (hk : k ≤ n) :
    ((List.range k).map fun i => v.extractLsb' (8 * (n - 1 - i)) 8).foldl (fun acc b => acc * 256 + b.toNat) 0 =
      v.toNat / 2 ^ (8 * (n - k)) := by
  induction k with
  | zero => simpa using (Nat.div_eq_of_lt v.isLt).symm
  | succ k ih =>
    have shift : v.toNat / 2 ^ (8 * (n - k)) = v.toNat / 2 ^ (8 * (n - (k + 1))) / 256 := by
      rw [Nat.div_div_eq_div_mul, show (256 : Nat) = 2 ^ 8 from rfl, ← Nat.pow_add]
      congr 2
      omega
    rw [List.range_succ, List.map_append, List.foldl_append, ih (by omega), shift]
    simp only [List.map_cons, List.map_nil, List.foldl_cons, List.foldl_nil, BitVec.extractLsb'_toNat,
      Nat.shiftRight_eq_div_pow, show n - 1 - k = n - (k + 1) by omega]
    omega

/-- R11: `MemRead` of n offsets that hold the bytes of `v`, the first one most significant, is `v`. -/
theorem memRead_eq_some {s : State} {o n : Nat} {v : BitVec (8 * n)}
    (h : ∀ k, k < n → s.frameByte (o + k) = some (v.extractLsb' (8 * (n - 1 - k)) 8)) : s.memRead o n = some v := by
  have bytes := mapM_eq_some_map (f := fun k => s.frameByte (o + k)) (l := List.range n)
    (fun k hk => h k (List.mem_range.mp hk))
  rw [State.memRead, bytes, Option.map_some, foldl_bytes_eq_div v le_rfl]
  simp

/-- Settles O34: ASSEMBLE leaves the code's bytes in order at 12p, and `MemRead` puts them together. -/
theorem memReadOfAnAssembledPixelIsItsCode : Obligations.MemReadOfAnAssembledPixelIsItsCode := by
  unfold Obligations.MemReadOfAnAssembledPixelIsItsCode
  intro s hfa free full
  refine ⟨_, execAssemble_of_populated free full, fun p hp => memRead_eq_some fun j hj => ?_⟩
  exact frameByte_assembled hfa hp hj

end Sys2Proof.Machine
end

section
/-! The status registers (R31 to R34, R200): what each index reads, field by field. -/

namespace Sys2Proof.Machine

@[simp] theorem statusReg_status (s : State) : s.statusReg 0#4 = s.statusWord := rfl
@[simp] theorem statusReg_fcause (s : State) : s.statusReg 1#4 = s.fcause.code.setWidth 32 := rfl
@[simp] theorem statusReg_fcmdHi (s : State) : s.statusReg 2#4 = s.fcmd.extractLsb' 32 32 := rfl
@[simp] theorem statusReg_fcmdLo (s : State) : s.statusReg 3#4 = s.fcmd.extractLsb' 0 32 := rfl
@[simp] theorem statusReg_dim (s : State) : s.statusReg 7#4 = cfgDim s.build := rfl
@[simp] theorem statusReg_pad (s : State) : s.statusReg 8#4 = cfgPad s.build := rfl
@[simp] theorem statusReg_pcode (s : State) : s.statusReg 9#4 = cfgPcode s.build := rfl

/-- STATUS, bit by bit (R31). -/
theorem statusWord_getLsbD (s : State) (n : Nat) : s.statusWord.getLsbD n =
    if n = 0 then s.fv else if n = 1 then s.txh else if n = 2 then s.halt
    else if n = 3 then decide (s.ldrem ≠ 0) else false := by
  simp only [State.statusWord, State.ld, BitVec.getLsbD_append]
  match n with
  | 0 | 1 | 2 | 3 => simp
  | n + 4 => simp

/-- W fits the upper half of CFG_DIM (R6, R33). -/
theorem cfgDim_width (b : Build) : ((cfgDim b).extractLsb' 16 16).toNat = b.width := by
  obtain ⟨-, hw, -⟩ := b.bounds
  rw [cfgDim, BitVec.extractLsb'_append_eq_left, BitVec.toNat_ofNat, Nat.mod_eq_of_lt (by omega)]

/-- H fits the lower half of CFG_DIM (R6, R33). -/
theorem cfgDim_height (b : Build) : ((cfgDim b).extractLsb' 0 16).toNat = b.height := by
  obtain ⟨-, -, -, hh, -⟩ := b.bounds
  rw [cfgDim, BitVec.extractLsb'_append_eq_right, BitVec.toNat_ofNat, Nat.mod_eq_of_lt (by omega)]

/-- CFG_DIM as a number: W above H. -/
theorem cfgDim_toNat (b : Build) : (cfgDim b).toNat = b.width * 65536 + b.height := by
  obtain ⟨-, hw, -, hh, -⟩ := b.bounds
  rw [cfgDim, toNat_append_eq_add, BitVec.toNat_ofNat, BitVec.toNat_ofNat, Nat.mod_eq_of_lt (by omega),
    Nat.mod_eq_of_lt (by omega)]
  rfl

/-- R fits CFG_PAD, because the frame is no longer than 2^32 bytes (R8). -/
theorem cfgPad_toNat (b : Build) : (cfgPad b).toNat = b.padLen := by
  rw [cfgPad, BitVec.toNat_ofNat, Nat.mod_eq_of_lt b.padLen_lt]

/-- The four codes stand in the four bytes of CFG_PCODE, P[0] lowest (R33). -/
theorem cfgPcode_bytes (b : Build) :
    (cfgPcode b).extractLsb' 0 8 = b.pulse.p0 ∧ (cfgPcode b).extractLsb' 8 8 = b.pulse.p1 ∧
    (cfgPcode b).extractLsb' 16 8 = b.pulse.p2 ∧ (cfgPcode b).extractLsb' 24 8 = b.pulse.p3 := by
  simp (disch := omega) only [cfgPcode, BitVec.extractLsb'_append_eq_of_le, BitVec.extractLsb'_append_eq_right,
    Nat.reduceSub, BitVec.extractLsb'_eq_self, and_self]

/-- Right after reset every register but the three of the configuration reads zero (R34). -/
theorem statusReg_resetOf (b : Build) {i : StatusIdx} (dim : i ≠ 7#4) (pad : i ≠ 8#4) (pcode : i ≠ 9#4) :
    (State.resetOf b).statusReg i = 0#32 := by
  unfold State.statusReg
  split
  case h_8 | h_9 | h_10 => bv_omega
  case h_1 => simp [State.statusWord, State.ld]
  case h_3 => simp
  all_goals rfl

/-- Settles O40: STATUS bit by bit, and the configuration registers field by field. -/
theorem statusAndConfigurationRegistersMirrorTheBlock : Obligations.StatusAndConfigurationRegistersMirrorTheBlock := by
  unfold Obligations.StatusAndConfigurationRegistersMirrorTheBlock
  intro s
  rw [statusReg_status, statusReg_dim, statusReg_pad, statusReg_pcode]
  exact ⟨statusWord_getLsbD s, cfgDim_width s.build, cfgDim_height s.build, cfgPad_toNat s.build,
    cfgPcode_bytes s.build⟩

/-- Settles O19: the reset column of R34, the configuration registers from what they hold in every state. -/
theorem statusRegistersAfterReset : Obligations.StatusRegistersAfterReset := by
  unfold Obligations.StatusRegistersAfterReset
  intro b
  rw [statusReg_dim, statusReg_pad, statusReg_pcode]
  exact ⟨fun _ => statusReg_resetOf b, cfgDim_toNat b, cfgPad_toNat b, rfl⟩

/-- Settles O41: the cause's code by its case, and FCMD as its two halves put together. -/
theorem faultRegistersReadTheRecordedFault : Obligations.FaultRegistersReadTheRecordedFault := by
  unfold Obligations.FaultRegistersReadTheRecordedFault
  intro s
  constructor
  · rw [statusReg_fcause]
    cases s.fcause <;> rfl
  · rw [statusReg_fcmdHi, statusReg_fcmdLo]
    exact BitVec.extractLsb'_append_extractLsb'

/-- Settles O39: an offset of the padding lies above the active region and below FRAME_LEN. -/
theorem paddingReadsZeroAlways : Obligations.PaddingReadsZeroAlways := by
  unfold Obligations.PaddingReadsZeroAlways
  intro s o above below
  exact frameByte_padding above below

end Sys2Proof.Machine
end

section
/-! What an instruction can do, said once for all thirteen (R210 to R232), and what each leaves unchanged. -/

namespace Sys2Proof.Machine

/-- The block after the fault check of instruction `i`: as it was, or with a fault of `i` recorded (R232). -/
def Checked (i : Instr) (s u : State) : Prop :=
  u = s ∨ ∃ c, c ≠ Cause.none ∧ u = raiseFault c (recordedWord i) s

/-- The next states that an instruction can reach from `s`: its own effect, or a recorded fault. TX_READ answers in
either case (R206). -/
inductive Effect (s : State) : Instr → State → Prop
  | fault (i : Instr) {c : Cause} (real : c ≠ .none) : Effect s i (raiseFault c (recordedWord i) s)
  | nop : Effect s .nop s
  | wrpix {row col : Half} (red green blue : Byte) (inside : inRange s.build row col = true) :
      Effect s (.wrpix row col red green blue)
        (s.writeCell (logicalIndex s.build row.toNat col.toNat) ⟨red, green, blue⟩)
  | clear : Effect s .clear
      { s with grid := List.replicate s.build.cells Pixel.black, defd := List.replicate s.build.cells true }
  | loadgrid : Effect s .loadgrid { s with ldrem := s.build.cells }
  | beat (red green blue : Byte) (loading : s.ldrem ≠ 0) : Effect s (.beat red green blue)
      { s.writeCell s.beatIndex ⟨red, green, blue⟩ with ldrem := s.ldrem - 1 }
  | assemble (free : s.txh = false) (full : s.populated = true) :
      Effect s .assemble { s with fa := assembleFrame s, fv := true }
  | enc (v : Byte) : Effect s (.enc v) { s with res0 := encChannel s.build.pulse v }
  | encpix (red green blue : Byte) : Effect s (.encpix red green blue)
      { s with
        res0 := encChannel s.build.pulse green
        res1 := encChannel s.build.pulse red
        res2 := encChannel s.build.pulse blue }
  | physidx {row col : Half} (inside : inRange s.build row col = true) : Effect s (.physidx row col)
      { s with
        res0 := BitVec.ofNat 32 (phys s.build row.toNat col.toNat)
        res1 := BitVec.ofNat 32 (12 * phys s.build row.toNat col.toNat) }
  | txAcquire (free : s.txh = false) : Effect s .txAcquire { s with txh := true, resetInHold := false }
  | txRead {offset : Word} {u : State} (checked : Checked (.txRead offset) s u) (b : Byte) :
      Effect s (.txRead offset) (u.replyTx b)
  | txReadFree {offset : Word} {u : State} (checked : Checked (.txRead offset) s u) :
      Effect s (.txRead offset) u.replyTxFree
  | txRelease (held : s.txh = true) : Effect s .txRelease { s with txh := false }
  | sread (idx : StatusIdx) : Effect s (.sread idx) (s.replyStatus (s.statusReg idx))

variable {i : Instr} {s t : State}

/-- TX_READ answers with a byte or with a free one, after a check of the hold and of the offset (R206, R231). -/
theorem effect_of_execTxRead {offset : Word} (h : execTxRead offset s = .next t) : Effect s (.txRead offset) t := by
  unfold execTxRead at h
  split at h
  · have checked : Checked (.txRead offset) s (raiseFault .txProtocol (recordedWord (.txRead offset)) s) :=
      .inr ⟨.txProtocol, by decide, rfl⟩
    cases h
    unfold answerUnheld
    split
    · exact .txReadFree checked
    · exact .txRead checked _
  · split at h
    · cases h
      exact .txRead (.inr ⟨.txRange, by decide, rfl⟩) _
    · cases h
      unfold answerRead
      split
      · exact .txReadFree (.inl rfl)
      · split
        · exact .txRead (.inl rfl) _
        · exact .txReadFree (.inl rfl)

/-- Every instruction reaches only the states that `Effect` lists. -/
theorem effect_of_exec (h : exec i s = .next t) : Effect s i t := by
  cases i with
  | nop => cases h; exact .nop
  | wrpix row col red green blue =>
    rw [exec_wrpix, execWrpix] at h
    split at h <;> cases h
    · exact .wrpix red green blue ‹_›
    · exact .fault _ (by decide)
  | clear => cases h; exact .clear
  | loadgrid => cases h; exact .loadgrid
  | beat red green blue =>
    rw [exec_beat, execBeat] at h
    split at h <;> cases h
    · exact .fault _ (by decide)
    · exact .beat red green blue ‹_›
  | assemble =>
    rw [exec_assemble, execAssemble] at h
    split at h
    · cases h; exact .fault _ (by decide)
    · split at h <;> cases h
      · exact .assemble (eq_false_of_ne_true ‹_›) ‹_›
      · exact .fault _ (by decide)
  | enc v => cases h; exact .enc v
  | encpix red green blue => cases h; exact .encpix red green blue
  | physidx row col =>
    rw [exec_physidx, execPhysidx] at h
    split at h <;> cases h
    · exact .physidx ‹_›
    · exact .fault _ (by decide)
  | txAcquire =>
    rw [exec_txAcquire, execTxAcquire] at h
    split at h <;> cases h
    · exact .fault _ (by decide)
    · exact .txAcquire (eq_false_of_ne_true ‹_›)
  | txRead offset => exact effect_of_execTxRead h
  | txRelease =>
    rw [exec_txRelease, execTxRelease] at h
    split at h <;> cases h
    · exact .txRelease ‹_›
    · exact .fault _ (by decide)
  | sread idx => cases h; exact .sread idx

theorem Effect.build_eq (effect : Effect s i t) : t.build = s.build := by
  cases effect with
  | txRead checked | txReadFree checked => rcases checked with rfl | ⟨c, -, rfl⟩ <;> simp
  | _ => simp

/-- R163: the active region is written by ASSEMBLE only. -/
theorem Effect.fa_eq (effect : Effect s i t) (other : i ≠ .assemble) : t.fa = s.fa := by
  cases effect with
  | assemble => exact absurd rfl other
  | txRead checked | txReadFree checked => rcases checked with rfl | ⟨c, -, rfl⟩ <;> simp
  | _ => simp

/-- Settles O52: read off `Effect`, one instruction at a time; the frame's bytes follow the build and FA. -/
theorem instructionsChangeOnlyWhatTheyName : Obligations.InstructionsChangeOnlyWhatTheyName := by
  unfold Obligations.InstructionsChangeOnlyWhatTheyName
  intro i s t h
  have effect := effect_of_exec h
  have bytes (other : i.mnemonic ∉ ["ASSEMBLE"]) : ∀ a, t.frameByte a = s.frameByte a :=
    frameByte_congr effect.build_eq (effect.fa_eq fun hi => other (by simp [hi, Instr.mnemonic]))
  cases effect with
  | nop | assemble => simp [Instr.mnemonic]
  | fault => simpa using bytes
  | txRead checked | txReadFree checked =>
    rcases checked with rfl | ⟨c, -, rfl⟩ <;> simpa [Instr.mnemonic] using bytes
  | _ => simpa [Instr.mnemonic] using bytes

end Sys2Proof.Machine
end

section
/-! The block's invariant (R25, R27, R30, R31, R125, R230, R276): every operation keeps it, so every step does. -/

namespace Sys2Proof.Machine

/-! ### The assembled frame: canonical, inside the active region, pulse codes throughout -/

/-- Byte `i` of a channel's code, counted from the last one sent, is the code of the channel's i-th group (R120). -/
theorem encChannel_byte (p : PulseCode) (v : Byte) {i : Nat} (hi : i < 4) :
    (encChannel p v).extractLsb' (8 * i) 8 = p.lookup (channelGroup v i) := by
  rw [encChannel]
  interval_cases i <;>
    simp (disch := omega) only [BitVec.extractLsb'_append_eq_of_le, BitVec.extractLsb'_append_eq_of_add_le,
      BitVec.extractLsb'_eq_self, Nat.reduceMul, Nat.reduceSub]

/-- Every byte of a pixel's code is a pulse code (R125). -/
theorem encPixel_byte (p : PulseCode) (px : Pixel) {i : Nat} (hi : i < 12) :
    ∃ g, (encPixel p px).extractLsb' (8 * i) 8 = p.lookup g := by
  rw [encPixel]
  by_cases blue : i < 4
  · rw [BitVec.extractLsb'_append_eq_of_add_le (by omega)]
    exact ⟨_, encChannel_byte p px.blue blue⟩
  rw [BitVec.extractLsb'_append_eq_of_le (by omega)]
  by_cases red : i < 8
  · rw [BitVec.extractLsb'_append_eq_of_add_le (by omega), show 8 * i - 32 = 8 * (i - 4) by omega]
    exact ⟨_, encChannel_byte p px.red (by omega)⟩
  · rw [BitVec.extractLsb'_append_eq_of_le (by omega), show 8 * i - 32 - 32 = 8 * (i - 8) by omega]
    exact ⟨_, encChannel_byte p px.green (by omega)⟩

/-- The canonical form outlasts R160's loops. -/
theorem wf_assembleFrame {s : State} (hfa : s.fa.wf = true) : (assembleFrame s).wf = true := by
  rw [assembleFrame]
  exact List.foldlRecOn (motive := fun m : Memory => m.wf = true) _ _ hfa fun m hm rc _ => wf_assembleCell s hm rc

/-- R160's loops leave every offset from ACTIVE_LEN on as it was. -/
theorem read_assembleFrame_of_ge {s : State} (hfa : s.fa.wf = true) {a : Nat} (ha : s.build.activeLen ≤ a) :
    (assembleFrame s).read a = s.fa.read a := by
  have hcol : ∀ rc ∈ gridCoords s.build, rc.2 < s.build.width := fun rc hrc =>
    ((mem_gridCoords _ rc.1 rc.2).mp hrc).2
  have outside : physInv s.build (a / 12) ∉ gridCoords s.build := by
    intro visited
    obtain ⟨hrow, -⟩ := (mem_gridCoords _ _ _).mp visited
    have hp : a / 12 < s.build.cells := by
      rw [Build.cells, Nat.mul_comm]
      exact (Nat.div_lt_iff_lt_mul s.build.bounds.1).mp hrow
    have : s.build.activeLen = 12 * s.build.cells := rfl
    omega
  have h := read_foldl_assembleCell s hcol hfa (a / 12) (Nat.mod_lt a (show 0 < 12 by decide))
  rwa [if_neg outside, Nat.div_add_mod] at h

/-- After R160's loops every active offset holds a pulse code (R125). -/
theorem read_assembleFrame_code {s : State} (hfa : s.fa.wf = true) {a : Nat} (ha : a < s.build.activeLen) :
    ∃ g, (assembleFrame s).read a = some (s.build.pulse.lookup g) := by
  have hp : a / 12 < s.build.cells := Nat.div_lt_of_lt_mul ha
  have h := read_assembleFrame hfa hp (Nat.mod_lt a (show 0 < 12 by decide))
  rw [Nat.div_add_mod] at h
  obtain ⟨g, hg⟩ := encPixel_byte s.build.pulse
    (s.cell ((physInv s.build (a / 12)).1 * s.build.width + (physInv s.build (a / 12)).2)) (i := 11 - a % 12) (by omega)
  exact ⟨g, h.trans (congrArg some hg)⟩

/-! ### The invariant, operation by operation -/

namespace BlockInv

variable {s : State}

/-- What the agents offer is no part of the invariant. -/
theorem offered (inv : BlockInv s) (ts : List Turn) (hq : List CmdWord) (tq : List ReqWord) (sq : List StatusIdx) :
    BlockInv { s with turns := ts, hostQ := hq, txQ := tq, statusQ := sq } :=
  { inv with }

theorem replyTx (inv : BlockInv s) (b : Byte) : BlockInv (s.replyTx b) := { inv with }

theorem replyTxFree (inv : BlockInv s) : BlockInv s.replyTxFree := { inv with }

theorem replyStatus (inv : BlockInv s) (v : Word) : BlockInv (s.replyStatus v) := { inv with }

/-- The result registers are no part of the invariant. -/
theorem results (inv : BlockInv s) (r0 r1 r2 : Word) : BlockInv { s with res0 := r0, res1 := r1, res2 := r2 } :=
  { inv with }

/-- R232: the first fault sets HALT and a cause together, and a later one changes nothing. -/
theorem raiseFault (inv : BlockInv s) {c : Cause} (real : c ≠ .none) (w : CmdWord) :
    BlockInv (raiseFault c w s) := by
  cases running : s.halt with
  | true => rwa [raiseFault_of_halt running]
  | false =>
    rw [raiseFault_of_running running]
    exact { inv with
      halt_cause := ⟨fun _ => real, fun _ => rfl⟩
      cause_none := fun cleared => absurd cleared real }

theorem checked (inv : BlockInv s) {i : Instr} {u : State} (h : Checked i s u) : BlockInv u := by
  obtain rfl | ⟨c, real, rfl⟩ := h
  · exact inv
  · exact inv.raiseFault real _

theorem writeCell (inv : BlockInv s) (k : Nat) (px : Pixel) : BlockInv (s.writeCell k px) :=
  { inv with
    grid_length := by simpa using inv.grid_length
    defd_length := by simpa using inv.defd_length }

theorem filled (inv : BlockInv s) (px : Pixel) (d : Bool) :
    BlockInv { s with grid := List.replicate s.build.cells px, defd := List.replicate s.build.cells d } :=
  { inv with
    grid_length := List.length_replicate
    defd_length := List.length_replicate }

theorem loading (inv : BlockInv s) {n : Nat} (hn : n ≤ s.build.cells) : BlockInv { s with ldrem := n } :=
  { inv with ldrem_le := hn }

/-- ASSEMBLE of any grid leaves a whole frame of pulse codes (R125, R160). -/
theorem assembled (inv : BlockInv s) : BlockInv { s with fa := assembleFrame s, fv := true } :=
  { inv with
    fa_wf := wf_assembleFrame inv.fa_wf
    fa_active := fun a ha => (read_assembleFrame_of_ge inv.fa_wf ha).trans (inv.fa_active a ha)
    fa_empty := fun unassembled => nomatch unassembled
    fa_codes := fun _ _ ha => read_assembleFrame_code inv.fa_wf ha }

/-- TX_ACQUIRE ends the memory of a reset in a hold as it takes the hold (R276). -/
theorem acquired (inv : BlockInv s) : BlockInv { s with txh := true, resetInHold := false } :=
  { inv with reset_in_hold := fun memory => nomatch memory }

theorem released (inv : BlockInv s) : BlockInv { s with txh := false } :=
  { inv with reset_in_hold := fun _ => rfl }

/-- Reset establishes the invariant, whatever the state before it (R270). -/
theorem assertReset (s : State) : BlockInv (assertReset s) where
  grid_length := List.length_replicate
  defd_length := List.length_replicate
  fa_wf := rfl
  fa_active := fun _ _ => rfl
  fa_empty := fun _ => rfl
  fa_codes := fun assembled => absurd assembled (by simp)
  ldrem_le := Nat.zero_le _
  halt_cause := by simp
  cause_none := fun _ => rfl
  reset_in_hold := fun _ => rfl

/-! ### Instructions, transactions, steps -/

/-- Every instruction keeps the invariant. -/
theorem effect (inv : BlockInv s) {i : Instr} {t : State} (h : Effect s i t) : BlockInv t := by
  cases h with
  | fault i real => exact inv.raiseFault real _
  | nop => exact inv
  | wrpix => exact inv.writeCell _ _
  | clear => exact inv.filled _ _
  | loadgrid => exact inv.loading le_rfl
  | beat => exact (inv.writeCell _ _).loading ((Nat.sub_le _ _).trans inv.ldrem_le)
  | assemble => exact inv.assembled
  | enc => exact inv.results _ s.res1 s.res2
  | encpix => exact inv.results _ _ _
  | physidx => exact inv.results _ _ s.res2
  | txAcquire => exact inv.acquired
  | txRead checked b => exact (inv.checked checked).replyTx b
  | txReadFree checked => exact (inv.checked checked).replyTxFree
  | txRelease => exact inv.released
  | sread => exact inv.replyStatus _

/-- Every transaction keeps the invariant: its instruction does, and so does ILLEGAL. -/
theorem perform (inv : BlockInv s) {pw : PortWord} {t : State} (h : perform pw s = .next t) : BlockInv t := by
  obtain ⟨i, -, h⟩ | ⟨-, rfl⟩ | ⟨r, -, -, rfl⟩ := perform_cases h
  · exact inv.effect (effect_of_exec h)
  · exact inv
  · exact inv.raiseFault (by decide) _

end BlockInv

/-- Settles O50: a step passes a turn, resets, or performs a transaction on the state without the word it takes. -/
theorem everyStepKeepsTheInvariant : Obligations.EveryStepKeepsTheInvariant := by
  unfold Obligations.EveryStepKeepsTheInvariant
  intro s t inv h
  obtain ⟨-, rfl⟩ | ⟨turn, ts, -, served⟩ := step_cases h
  · exact inv
  · obtain ⟨-, rfl⟩ | ⟨-, rfl⟩ | ⟨w, rest, -, -, -, h⟩ | ⟨w, rest, -, -, h⟩ | ⟨i, rest, -, -, h⟩ := served
    · exact BlockInv.assertReset _
    · exact inv.offered ts s.hostQ s.txQ s.statusQ
    · exact (inv.offered ts rest s.txQ s.statusQ).perform h
    · exact (inv.offered ts s.hostQ rest s.statusQ).perform h
    · exact (inv.offered ts s.hostQ s.txQ rest).perform h

end Sys2Proof.Machine
end

section
/-! Cells never written since reset are unobservable (R26): a step of two states that differ in such cells only. -/

namespace Sys2Proof.Machine

/-! ### Operations on related states -/

namespace SameButUnwritten

variable {s t : State}

/-- The second state is the first with another grid. -/
theorem exists_grid (h : SameButUnwritten s t) : ∃ g, t = { s with grid := g } := ⟨t.grid, h.rest.symm⟩

theorem refl (s : State) : SameButUnwritten s s := ⟨rfl, rfl, fun _ _ => rfl⟩

/-- A change outside GRID and DEF that is the same in both states keeps them related. -/
theorem elsewhere (h : SameButUnwritten s t) {s' t' : State} (grid : s'.grid = s.grid) (defd : s'.defd = s.defd)
    (grid' : t'.grid = t.grid) (rest : { s' with grid := t'.grid } = t') : SameButUnwritten s' t' where
  rest := rest
  length := by rw [grid, grid', h.length]
  cells k written := by
    have same := h.cells k (by simpa [State.defBit, defd] using written)
    simpa [State.cell, grid, grid'] using same

theorem raiseFault (h : SameButUnwritten s t) (c : Cause) (w : CmdWord) :
    SameButUnwritten (raiseFault c w s) (raiseFault c w t) := by
  obtain ⟨g, rfl⟩ := h.exists_grid
  refine h.elsewhere (by simp) (by simp) (by simp) ?_
  cases running : s.halt <;> simp [Machine.raiseFault, running]

theorem replyTx (h : SameButUnwritten s t) (b : Byte) : SameButUnwritten (s.replyTx b) (t.replyTx b) := by
  obtain ⟨g, rfl⟩ := h.exists_grid
  exact h.elsewhere rfl rfl rfl rfl

theorem replyTxFree (h : SameButUnwritten s t) : SameButUnwritten s.replyTxFree t.replyTxFree := by
  obtain ⟨g, rfl⟩ := h.exists_grid
  exact h.elsewhere rfl rfl rfl rfl

theorem answerUnheld (h : SameButUnwritten s t) : SameButUnwritten (answerUnheld s) (answerUnheld t) := by
  have memory : t.resetInHold = s.resetInHold := by rw [← h.rest]
  rw [Machine.answerUnheld, Machine.answerUnheld, memory]
  split
  · exact h.replyTxFree
  · exact h.replyTx _

/-- TX_READ shows FA and the padding, never the grid (R206). -/
theorem answerRead (h : SameButUnwritten s t) (o : Nat) : SameButUnwritten (answerRead o s) (answerRead o t) := by
  have build : t.build = s.build := by rw [← h.rest]
  have fa : t.fa = s.fa := by rw [← h.rest]
  have fv : t.fv = s.fv := by rw [← h.rest]
  rw [Machine.answerRead, Machine.answerRead, frameByte_congr build fa, build, fv]
  split
  · exact h.replyTxFree
  · split
    · exact h.replyTx _
    · exact h.replyTxFree

/-- A cell written with one colour in both states is the same in both. -/
theorem writeCell (h : SameButUnwritten s t) (k : Nat) (px : Pixel) :
    SameButUnwritten (s.writeCell k px) (t.writeCell k px) := by
  obtain ⟨g, rfl⟩ := h.exists_grid
  refine ⟨rfl, by simpa using h.length, fun j written => ?_⟩
  have length : s.grid.length = g.length := h.length
  by_cases here : k = j
  · subst here
    simp [State.cell, List.getElem?_set, length]
  · have before := h.cells j (by simpa [State.defBit, here] using written)
    simpa [State.cell, here] using before

/-- On a populated grid the two states agree in every cell that ASSEMBLE reads, so they assemble one frame. -/
theorem assembleFrame_eq (h : SameButUnwritten s t) (full : s.populated = true) :
    assembleFrame t = assembleFrame s := by
  obtain ⟨g, rfl⟩ := h.exists_grid
  refine List.foldl_ext _ _ _ fun m rc hrc => ?_
  obtain ⟨hrow, hcol⟩ : rc.1 < s.build.height ∧ rc.2 < s.build.width := (mem_gridCoords _ _ _).mp hrc
  have inside : logicalIndex s.build rc.1 rc.2 < s.build.cells := by
    have := row_block_le s.build hrow
    simp only [logicalIndex]
    omega
  have cell := h.cells _ ((populated_iff s).mp full _ inside)
  simp only [assembleCell, cell]

theorem assembled (h : SameButUnwritten s t) (full : s.populated = true) :
    SameButUnwritten { s with fa := assembleFrame s, fv := true } { t with fa := assembleFrame t, fv := true } := by
  rw [h.assembleFrame_eq full]
  obtain ⟨g, rfl⟩ := h.exists_grid
  exact h.elsewhere rfl rfl rfl rfl

/-- Reset forgets the whole grid. -/
theorem assertReset (h : SameButUnwritten s t) : SameButUnwritten (assertReset s) (assertReset t) := by
  obtain ⟨g, rfl⟩ := h.exists_grid
  exact refl _

end SameButUnwritten

/-! ### Instructions, transactions, steps -/

section
variable {s t : State}

theorem related_next {s' t' : State} (h : SameButUnwritten s' t') :
    OutcomesRelated SameButUnwritten (.next s') (.next t') := ⟨s', t', rfl, rfl, h⟩

/-- Two runs that branch alike are related when both branches are. -/
theorem related_ite {c d : Prop} [Decidable c] [Decidable d] {x x' y y' : Host.Outcome State Fault Refusal}
    (alike : c ↔ d) (yes : c → OutcomesRelated SameButUnwritten x y)
    (no : ¬c → OutcomesRelated SameButUnwritten x' y') :
    OutcomesRelated SameButUnwritten (if c then x else x') (if d then y else y') := by
  by_cases hc : c
  · simpa [hc, alike.mp hc] using yes hc
  · simpa [hc, mt alike.mpr hc] using no hc

/-- No instruction shows a cell that is not written. -/
theorem exec_related (i : Instr) (h : SameButUnwritten s t) :
    OutcomesRelated SameButUnwritten (exec i s) (exec i t) := by
  have fault (c : Cause) : OutcomesRelated SameButUnwritten
      (.next (raiseFault c (recordedWord i) s)) (.next (raiseFault c (recordedWord i) t)) :=
    related_next (h.raiseFault c _)
  obtain ⟨g, rfl⟩ := h.exists_grid
  cases i with
  | nop => exact related_next h
  | wrpix => exact related_ite .rfl (fun _ => related_next (h.writeCell _ _)) fun _ => fault _
  | clear => exact related_next (.refl _)
  | loadgrid | enc | encpix | sread => exact related_next (h.elsewhere rfl rfl rfl rfl)
  | beat =>
    exact related_ite .rfl (fun _ => fault _) fun _ =>
      related_next ((h.writeCell _ _).elsewhere rfl rfl rfl rfl)
  | assemble =>
    exact related_ite .rfl (fun _ => fault _) fun _ =>
      related_ite .rfl (fun full => related_next (h.assembled full)) fun _ => fault _
  | physidx | txRelease =>
    exact related_ite .rfl (fun _ => related_next (h.elsewhere rfl rfl rfl rfl)) fun _ => fault _
  | txAcquire =>
    exact related_ite .rfl (fun _ => fault _) fun _ => related_next (h.elsewhere rfl rfl rfl rfl)
  | txRead =>
    exact related_ite .rfl (fun _ => related_next (h.raiseFault _ _).answerUnheld) fun _ =>
      related_ite .rfl (fun _ => related_next ((h.raiseFault _ _).replyTx _)) fun _ =>
        related_next (h.answerRead _)

/-- A word decodes alike in both states, and so does what becomes of it. -/
theorem perform_related (pw : PortWord) (h : SameButUnwritten s t) :
    OutcomesRelated SameButUnwritten (perform pw s) (perform pw t) := by
  have loading : t.ld = s.ld := by rw [← h.rest]; rfl
  unfold perform
  rw [loading]
  cases decode s.ld pw with
  | ok i => exact exec_related i h
  | error r =>
    cases r with
    | idle => exact related_next h
    | _ => exact related_next (h.raiseFault _ _)

/-- Both states serve a turn with the same word, if with any. -/
theorem serve_related (turn : Turn) (h : SameButUnwritten s t) :
    OutcomesRelated SameButUnwritten (serve turn s) (serve turn t) := by
  have halt : s.halt = true ↔ t.halt = true := by rw [← h.rest]
  have hostQ : t.hostQ = s.hostQ := by rw [← h.rest]
  have txQ : t.txQ = s.txQ := by rw [← h.rest]
  have statusQ : t.statusQ = s.statusQ := by rw [← h.rest]
  cases turn with
  | reset => exact related_next h.assertReset
  | command =>
    simp only [serve, serveCommand, hostQ]
    refine related_ite halt (fun _ => related_next h) fun _ => ?_
    cases s.hostQ with
    | nil => exact related_next h
    | cons w rest =>
      exact perform_related _ (h.elsewhere rfl rfl rfl (by rw [← h.rest]))
  | transport =>
    simp only [serve, serveTransport, txQ]
    cases s.txQ with
    | nil => exact related_next h
    | cons w rest =>
      exact perform_related _ (h.elsewhere rfl rfl rfl (by rw [← h.rest]))
  | status =>
    simp only [serve, serveStatus, statusQ]
    cases s.statusQ with
    | nil => exact related_next h
    | cons i rest =>
      exact perform_related _ (h.elsewhere rfl rfl rfl (by rw [← h.rest]))

end

/-- Settles O53: both states take the same turn, and serving it keeps them related. -/
theorem unwrittenCellsAreUnobservable : Obligations.UnwrittenCellsAreUnobservable := by
  unfold Obligations.UnwrittenCellsAreUnobservable
  intro s t h
  have turns : t.turns = s.turns := by rw [← h.rest]
  rw [step, step, takeTurn, takeTurn, turns]
  cases s.turns with
  | nil => exact related_next h
  | cons turn rest =>
    exact serve_related turn (h.elsewhere rfl rfl rfl (by rw [← h.rest]))

end Sys2Proof.Machine
end

section
/-! The frame as memory (R69, R71, R73): assembled again, kept under a hold, and free again after a release. -/

namespace Sys2Proof.Machine

/-! ### Assembling again (R69) -/

/-- The frame depends on the configuration and on the active bytes only: the padding is constant (R28). -/
theorem frameByte_congr_of_read {s t : State} (build : t.build = s.build)
    (active : ∀ o, o < s.build.activeLen → t.fa.read o = s.fa.read o) (o : Nat) : t.frameByte o = s.frameByte o := by
  by_cases ho : o < s.build.activeLen
  · rw [frameByte_active ho, frameByte_active (build ▸ ho), active o ho]
  · simp [State.frameByte, build, ho]

/-- R160's loops write every active byte from the grid alone, so over the same grid they write it alike. -/
theorem read_assembleFrame_assembled {s : State} (hfa : s.fa.wf = true) {o : Nat} (ho : o < s.build.activeLen) :
    (assembleFrame { s with fa := assembleFrame s, fv := true }).read o = (assembleFrame s).read o := by
  have hp : o / 12 < s.build.cells := Nat.div_lt_of_lt_mul ho
  have hj : o % 12 < 12 := Nat.mod_lt o (by decide)
  rw [← Nat.div_add_mod o 12, read_assembleFrame hfa hp hj]
  exact read_assembleFrame (s := { s with fa := assembleFrame s, fv := true }) (wf_assembleFrame hfa) hp hj

/-- Settles O35: the first ASSEMBLE leaves the hold, the grid and a canonical FA, so the second completes too. -/
theorem assembleIsIdempotent : Obligations.AssembleIsIdempotent := by
  unfold Obligations.AssembleIsIdempotent
  intro s hfa free full
  exact ⟨_, _, execAssemble_of_populated free full, execAssemble_of_populated free full, rfl,
    frameByte_congr_of_read rfl fun _ ho => read_assembleFrame_assembled hfa ho⟩

/-! ### Under a hold (R71) -/

/-- ASSEMBLE faults under a hold, so there no instruction writes the active region. -/
theorem Effect.fa_eq_of_held {i : Instr} {s t : State} (effect : Effect s i t) (held : s.txh = true) : t.fa = s.fa := by
  obtain rfl | other := eq_or_ne i .assemble
  · cases effect with
    | fault => simp
    | assemble free => simp [held] at free
  · exact effect.fa_eq other

/-- Under a hold no transaction changes a byte of the frame. -/
theorem perform_frameByte_of_held {pw : PortWord} {s t : State} (h : perform pw s = .next t) (held : s.txh = true)
    (a : Nat) : t.frameByte a = s.frameByte a := by
  obtain ⟨i, -, h⟩ | ⟨-, rfl⟩ | ⟨r, -, -, rfl⟩ := perform_cases h
  · have effect := effect_of_exec h
    exact frameByte_congr effect.build_eq (effect.fa_eq_of_held held) a
  · rfl
  · exact frameByte_congr (by simp) (by simp) a

/-- Settles O38: a step that is no reset passes a turn or performs a transaction, and each keeps the frame. -/
theorem frameIsStableUnderAHold : Obligations.FrameIsStableUnderAHold := by
  unfold Obligations.FrameIsStableUnderAHold
  intro s t held noReset h a
  obtain ⟨-, rfl⟩ | ⟨turn, ts, turns, served⟩ := step_cases h
  · rfl
  · obtain ⟨rfl, -⟩ | ⟨-, rfl⟩ | ⟨w, rest, -, -, -, h⟩ | ⟨w, rest, -, -, h⟩ | ⟨i, rest, -, -, h⟩ := served
    · simp [turns] at noReset
    · rfl
    all_goals exact perform_frameByte_of_held h held a

/-! ### After a release (R73) -/

/-- TX_RELEASE in a hold drops it and does nothing else (R208). -/
theorem execTxRelease_of_held {s : State} (held : s.txh = true) : execTxRelease s = .next { s with txh := false } := by
  simp [execTxRelease, held]

/-- Settles O47: TX_RELEASE frees the hold and leaves the grid populated, which is all that ASSEMBLE asks. -/
theorem releaseLetsAssembleSucceed : Obligations.ReleaseLetsAssembleSucceed := by
  unfold Obligations.ReleaseLetsAssembleSucceed
  intro s held full
  rw [execAll_cons_of_next (i := .txRelease) (execTxRelease_of_held held),
    execAll_cons_of_next (i := .assemble) (execAssemble_of_populated (s := { s with txh := false }) rfl full)]
  exact ⟨_, rfl, rfl, rfl, rfl⟩

end Sys2Proof.Machine
end

section
/-! The decoders are the inverse of the encoder (R91 to R101): a port's word decodes to exactly the instruction that it
encodes, in the phase that takes it. -/

namespace Sys2Proof

/-! ### A word is made of its fields -/

/-- Format CMD puts the fields of a word back in their places (R91). -/
theorem encodeCmd_fields (w : CmdWord) : encodeCmd (Field.op w) (Field.row w) (Field.col w) (Field.red w)
    (Field.grn w) (Field.blu w) = w := by
  apply BitVec.eq_of_toNat_eq
  rw [encodeCmd_toNat]
  simp only [Field.op, Field.row, Field.col, Field.red, Field.grn, Field.blu, BitVec.extractLsb'_toNat,
    Nat.shiftRight_eq_div_pow]
  have := w.isLt
  omega

/-- Format TREQ puts the fields of a request back in their places (R94). -/
theorem encodeTreq_fields (w : ReqWord) : encodeTreq (Field.top w) (Field.offset w) = w := by
  apply BitVec.eq_of_toNat_eq
  rw [encodeTreq_toNat]
  simp only [Field.top, Field.offset, BitVec.extractLsb'_toNat, Nat.shiftRight_eq_div_pow]
  have := w.isLt
  omega

/-- Two CMD words are equal when their fields are. -/
theorem encodeCmd_inj {op op' : Byte} {row row' col col' : Half} {red red' grn grn' blu blu' : Byte} :
    encodeCmd op row col red grn blu = encodeCmd op' row' col' red' grn' blu' ↔
      op = op' ∧ row = row' ∧ col = col' ∧ red = red' ∧ grn = grn' ∧ blu = blu' := by
  constructor
  · intro h
    exact ⟨by simpa using congrArg Field.op h, by simpa using congrArg Field.row h, by simpa using congrArg Field.col h,
      by simpa using congrArg Field.red h, by simpa using congrArg Field.grn h, by simpa using congrArg Field.blu h⟩
  · rintro ⟨rfl, rfl, rfl, rfl, rfl, rfl⟩
    rfl

/-- Two requests are equal when their fields are. -/
theorem encodeTreq_inj {top top' : BitVec 2} {offset offset' : Word} :
    encodeTreq top offset = encodeTreq top' offset' ↔ top = top' ∧ offset = offset' := by
  constructor
  · intro h
    exact ⟨by simpa using congrArg Field.top h, by simpa using congrArg Field.offset h⟩
  · rintro ⟨rfl, rfl⟩
    rfl

/-- The bits of a masked CMD word, field by field. -/
theorem encodeCmd_and (op op' : Byte) (row row' col col' : Half) (red red' grn grn' blu blu' : Byte) :
    encodeCmd op row col red grn blu &&& encodeCmd op' row' col' red' grn' blu' =
      encodeCmd (op &&& op') (row &&& row') (col &&& col') (red &&& red') (grn &&& grn') (blu &&& blu') := by
  apply BitVec.eq_of_getLsbD_eq
  intro i _
  simp only [BitVec.getLsbD_and, encodeCmd_getLsbD]
  split_ifs <;> rfl

/-- The bits of a masked request, field by field. -/
theorem encodeTreq_and (top top' : BitVec 2) (offset offset' : Word) :
    encodeTreq top offset &&& encodeTreq top' offset' = encodeTreq (top &&& top') (offset &&& offset') :=
  BitVec.and_append

/-! ### The reserved bits of R97, as the fields that they are -/

theorem extract_0_56_eq_zero (w : CmdWord) : w.extractLsb' 0 56 = 0#56 ↔
    Field.row w = 0#16 ∧ Field.col w = 0#16 ∧ Field.red w = 0#8 ∧ Field.grn w = 0#8 ∧ Field.blu w = 0#8 := by
  simp only [Field.row, Field.col, Field.red, Field.grn, Field.blu, ← BitVec.toNat_inj, BitVec.extractLsb'_toNat,
    Nat.shiftRight_eq_div_pow, BitVec.toNat_ofNat]
  omega

theorem extract_8_48_eq_zero (w : CmdWord) : w.extractLsb' 8 48 = 0#48 ↔
    Field.row w = 0#16 ∧ Field.col w = 0#16 ∧ Field.red w = 0#8 ∧ Field.grn w = 0#8 := by
  simp only [Field.row, Field.col, Field.red, Field.grn, ← BitVec.toNat_inj, BitVec.extractLsb'_toNat,
    Nat.shiftRight_eq_div_pow, BitVec.toNat_ofNat]
  omega

theorem extract_24_32_eq_zero (w : CmdWord) : w.extractLsb' 24 32 = 0#32 ↔
    Field.row w = 0#16 ∧ Field.col w = 0#16 := by
  simp only [Field.row, Field.col, ← BitVec.toNat_inj, BitVec.extractLsb'_toNat, Nat.shiftRight_eq_div_pow,
    BitVec.toNat_ofNat]
  omega

theorem extract_0_24_eq_zero (w : CmdWord) : w.extractLsb' 0 24 = 0#24 ↔
    Field.red w = 0#8 ∧ Field.grn w = 0#8 ∧ Field.blu w = 0#8 := by
  simp only [Field.red, Field.grn, Field.blu, ← BitVec.toNat_inj, BitVec.extractLsb'_toNat,
    Nat.shiftRight_eq_div_pow, BitVec.toNat_ofNat]
  omega

theorem extract_24_40_eq_zero (w : CmdWord) : w.extractLsb' 24 40 = 0#40 ↔
    Field.op w = 0#8 ∧ Field.row w = 0#16 ∧ Field.col w = 0#16 := by
  simp only [Field.op, Field.row, Field.col, ← BitVec.toNat_inj, BitVec.extractLsb'_toNat,
    Nat.shiftRight_eq_div_pow, BitVec.toNat_ofNat]
  omega

/-! ### From the word to the instruction: the command port by OP, the transport port by TOP -/

theorem whenReservedZero_eq_ok {n : Nat} {bits : BitVec n} {i j : Instr} :
    whenReservedZero bits i = .ok j ↔ bits = 0#n ∧ i = j := by
  unfold whenReservedZero
  split <;> simp [*]

/-- A word that the command decoder reads is the encoding of what it reads, and what it reads is no data beat. -/
theorem encode_of_decodeCommand {w : CmdWord} {i : Instr} (h : decodeCommand w = .ok i) :
    encode i = .command w ∧ i.isBeat = false := by
  have made := encodeCmd_fields w
  have opcode {n : Nat} (hn : (Field.op w).toNat = n) : Field.op w = BitVec.ofNat 8 n :=
    (BitVec.toNat_eq_nat.mp hn).2
  unfold decodeCommand at h
  split at h
  case h_9 => cases h
  case h_2 hop =>
    cases h
    rw [opcode hop] at made
    exact ⟨congrArg _ made, rfl⟩
  all_goals
    rename_i hop
    rw [opcode hop] at made
    obtain ⟨reserved, rfl⟩ := whenReservedZero_eq_ok.mp h
    simp only [extract_0_56_eq_zero, extract_8_48_eq_zero, extract_24_32_eq_zero, extract_0_24_eq_zero] at reserved
    simp only [reserved] at made
    exact ⟨congrArg _ made, rfl⟩

/-- A word that is read as a data beat is the encoding of that beat. -/
theorem encode_of_decodeBeat {w : CmdWord} {i : Instr} (h : decodeBeat w = .ok i) :
    encode i = .command w ∧ i.isBeat = true := by
  have made := encodeCmd_fields w
  unfold decodeBeat at h
  split at h
  case isTrue reserved =>
    cases h
    simp only [(extract_24_40_eq_zero w).mp reserved] at made
    exact ⟨congrArg _ made, rfl⟩
  case isFalse => cases h

theorem decodeTreq_of_top_zero {w : ReqWord} (h : Field.top w = 0#2) : decodeTreq w = .error .idle := by
  simp [decodeTreq, h]

theorem decodeTreq_of_top_one {w : ReqWord} (h : Field.top w = 1#2) :
    decodeTreq w = if Field.offset w = 0#32 then .ok .txAcquire else .error .reservedOffset := by
  simp [decodeTreq, h]

theorem decodeTreq_of_top_two {w : ReqWord} (h : Field.top w = 2#2) :
    decodeTreq w = .ok (.txRead (Field.offset w)) := by
  simp [decodeTreq, h]

theorem decodeTreq_of_top_three {w : ReqWord} (h : Field.top w = 3#2) :
    decodeTreq w = if Field.offset w = 0#32 then .ok .txRelease else .error .reservedOffset := by
  simp [decodeTreq, h]

/-- A request that the transport decoder reads is the encoding of what it reads. -/
theorem encode_of_decodeTreq {w : ReqWord} {i : Instr} (h : decodeTreq w = .ok i) : encode i = .transport w := by
  rw [← encodeTreq_fields w]
  rcases group_cases (Field.top w) with top | top | top | top
  · simp [decodeTreq_of_top_zero top] at h
  · rw [decodeTreq_of_top_one top] at h
    split at h <;> cases h
    simp [encode, *]
  · rw [decodeTreq_of_top_two top] at h
    cases h
    simp [encode, top]
  · rw [decodeTreq_of_top_three top] at h
    split at h <;> cases h
    simp [encode, *]

/-- Every instruction's encoding is read back in the phase that takes it (R91 to R96). -/
theorem decode_isBeat_encode (i : Instr) : decode i.isBeat (encode i) = .ok i :=
  match i with
  | .nop => Laws.RoundTrip.nop
  | .wrpix row col red green blue => Laws.RoundTrip.wrpix row col red green blue
  | .clear => Laws.RoundTrip.clear
  | .loadgrid => Laws.RoundTrip.loadgrid
  | .beat red green blue => Laws.RoundTrip.beat red green blue
  | .assemble => Laws.RoundTrip.assemble
  | .enc v => Laws.RoundTrip.enc v
  | .encpix red green blue => Laws.RoundTrip.encpix red green blue
  | .physidx row col => Laws.RoundTrip.physidx row col
  | .txAcquire => Laws.RoundTrip.txAcquire
  | .txRead offset => Laws.RoundTrip.txRead offset
  | .txRelease => Laws.RoundTrip.txRelease
  | .sread idx => Laws.RoundTrip.sread idx

/-! ### Each decoder, from both sides -/

/-- While LDREM = 0 the command port reads exactly the encodings of the instructions that are no data beats. -/
theorem decodeCommand_eq_ok_iff {w : CmdWord} {i : Instr} :
    decodeCommand w = .ok i ↔ encode i = .command w ∧ i.isBeat = false := by
  refine ⟨encode_of_decodeCommand, fun ⟨coded, command⟩ => ?_⟩
  have back := decode_isBeat_encode i
  rwa [coded, command] at back

/-- While LDREM > 0 the command port reads exactly the encodings of the data beats. -/
theorem decodeBeat_eq_ok_iff {w : CmdWord} {i : Instr} :
    decodeBeat w = .ok i ↔ encode i = .command w ∧ i.isBeat = true := by
  refine ⟨encode_of_decodeBeat, fun ⟨coded, beat⟩ => ?_⟩
  have back := decode_isBeat_encode i
  rwa [coded, beat] at back

/-- The transport port reads exactly the encodings of the three requests. -/
theorem decodeTreq_eq_ok_iff {w : ReqWord} {i : Instr} : decodeTreq w = .ok i ↔ encode i = .transport w := by
  refine ⟨encode_of_decodeTreq, fun coded => ?_⟩
  have back := decode_isBeat_encode i
  rwa [coded] at back

/-- Settles O2: only the command port looks at the phase, and there the phase is the instruction's own. -/
theorem decodeReadsBackEveryEncoding : Obligations.DecodeReadsBackEveryEncoding := by
  unfold Obligations.DecodeReadsBackEveryEncoding
  intro i loading phase
  have back := decode_isBeat_encode i
  cases coded : encode i with
  | command w =>
    rw [coded] at back phase
    rwa [show loading = i.isBeat from phase]
  | transport w => rwa [coded] at back
  | status idx => rwa [coded] at back

/-- Settles O3: port by port, and on the command port phase by phase. -/
theorem everyDecodedWordIsAnEncoding : Obligations.EveryDecodedWordIsAnEncoding := by
  unfold Obligations.EveryDecodedWordIsAnEncoding
  intro loading pw i h
  cases pw with
  | command w =>
    cases loading with
    | false => exact (decodeCommand_eq_ok_iff.mp h).1
    | true => exact (decodeBeat_eq_ok_iff.mp h).1
  | transport w => exact decodeTreq_eq_ok_iff.mp h
  | status idx => cases h; rfl

end Sys2Proof
end

section
/-! R93's and R94's mask/match pairs: a row's mask looks at whole fields, so the row selects the encodings of its own
instruction and no other word. -/

namespace Sys2Proof

/-! ### R93 -/

/-- The rows of R93 with mask and match written in format CMD. -/
theorem commandTable_fields : commandTable =
    [⟨"NOP", encodeCmd 0x00#8 0#16 0#16 0#8 0#8 0#8, encodeCmd 0xFF#8 0xFFFF#16 0xFFFF#16 0xFF#8 0xFF#8 0xFF#8⟩,
     ⟨"WRPIX", encodeCmd 0x01#8 0#16 0#16 0#8 0#8 0#8, encodeCmd 0xFF#8 0#16 0#16 0#8 0#8 0#8⟩,
     ⟨"CLEAR", encodeCmd 0x02#8 0#16 0#16 0#8 0#8 0#8, encodeCmd 0xFF#8 0xFFFF#16 0xFFFF#16 0xFF#8 0xFF#8 0xFF#8⟩,
     ⟨"LOADGRID", encodeCmd 0x03#8 0#16 0#16 0#8 0#8 0#8, encodeCmd 0xFF#8 0xFFFF#16 0xFFFF#16 0xFF#8 0xFF#8 0xFF#8⟩,
     ⟨"ASSEMBLE", encodeCmd 0x04#8 0#16 0#16 0#8 0#8 0#8, encodeCmd 0xFF#8 0xFFFF#16 0xFFFF#16 0xFF#8 0xFF#8 0xFF#8⟩,
     ⟨"ENC", encodeCmd 0x05#8 0#16 0#16 0#8 0#8 0#8, encodeCmd 0xFF#8 0xFFFF#16 0xFFFF#16 0xFF#8 0xFF#8 0#8⟩,
     ⟨"ENCPIX", encodeCmd 0x06#8 0#16 0#16 0#8 0#8 0#8, encodeCmd 0xFF#8 0xFFFF#16 0xFFFF#16 0#8 0#8 0#8⟩,
     ⟨"PHYSIDX", encodeCmd 0x07#8 0#16 0#16 0#8 0#8 0#8, encodeCmd 0xFF#8 0#16 0#16 0xFF#8 0xFF#8 0xFF#8⟩] := by
  decide

/-- A row in format CMD selects a word field by field. -/
theorem CmdRow.selects_fields {name : String} {op op' mop : Byte} {row row' mrow col col' mcol : Half}
    {red red' mred grn grn' mgrn blu blu' mblu : Byte} :
    CmdRow.selects ⟨name, encodeCmd op' row' col' red' grn' blu', encodeCmd mop mrow mcol mred mgrn mblu⟩
        (encodeCmd op row col red grn blu) = true ↔
      op &&& mop = op' ∧ row &&& mrow = row' ∧ col &&& mcol = col' ∧ red &&& mred = red' ∧ grn &&& mgrn = grn' ∧
        blu &&& mblu = blu' := by
  simp only [CmdRow.selects, beq_iff_eq, encodeCmd_and, encodeCmd_inj]

/-- A full mask reads the whole field. -/
theorem and_FF (x : Byte) : x &&& 0xFF#8 = x := BitVec.and_allOnes (x := x)

theorem and_FFFF (x : Half) : x &&& 0xFFFF#16 = x := BitVec.and_allOnes (x := x)

/-- A row of R93 selects the encodings of its own instruction. -/
theorem exists_encode_of_selects {w : CmdWord} {r : CmdRow} (mem : r ∈ commandTable) (h : r.selects w = true) :
    ∃ i : Instr, encode i = .command w ∧ i.isBeat = false ∧ i.mnemonic = r.mnemonic := by
  rw [← encodeCmd_fields w] at h ⊢
  simp only [commandTable_fields, List.mem_cons, List.not_mem_nil, or_false] at mem
  rcases mem with rfl | rfl | rfl | rfl | rfl | rfl | rfl | rfl <;>
    simp only [CmdRow.selects_fields, and_FF, and_FFFF, BitVec.and_zero, and_true] at h <;> simp only [h]
  · exact ⟨.nop, rfl, rfl, rfl⟩
  · exact ⟨.wrpix _ _ _ _ _, rfl, rfl, rfl⟩
  · exact ⟨.clear, rfl, rfl, rfl⟩
  · exact ⟨.loadgrid, rfl, rfl, rfl⟩
  · exact ⟨.assemble, rfl, rfl, rfl⟩
  · exact ⟨.enc _, rfl, rfl, rfl⟩
  · exact ⟨.encpix _ _ _, rfl, rfl, rfl⟩
  · exact ⟨.physidx _ _, rfl, rfl, rfl⟩

/-- The encoding of an instruction other than a data beat belongs to the instruction's own row of R93. -/
theorem exists_selects_of_encode {w : CmdWord} {i : Instr} (coded : encode i = .command w) (command : i.isBeat = false) :
    ∃ r ∈ commandTable, r.selects w = true ∧ i.mnemonic = r.mnemonic := by
  rw [commandTable_fields]
  cases i with
  | beat => cases command
  | txAcquire | txRead | txRelease | sread => cases coded
  | _ => cases coded; simp [CmdRow.selects_fields, Instr.mnemonic]

/-- A word is read as a data beat exactly when its bits [63:24] are zero (R92). -/
theorem exists_decodeBeat_iff {w : CmdWord} : (∃ i, decodeBeat w = .ok i) ↔ w.extractLsb' 24 40 = 0#40 := by
  unfold decodeBeat
  split <;> simp [*]

/-- The bits under the data beat's mask are the fields OP, ROW and COL. -/
theorem and_beatMask_eq_zero (w : CmdWord) :
    w &&& 0xFFFFFFFFFF000000#64 = 0#64 ↔ w.extractLsb' 24 40 = 0#40 := by
  have mask : 0xFFFFFFFFFF000000#64 = encodeCmd 0xFF#8 0xFFFF#16 0xFFFF#16 0#8 0#8 0#8 := by decide
  have zero : 0#64 = encodeCmd 0#8 0#16 0#16 0#8 0#8 0#8 := by decide
  rw [extract_24_40_eq_zero]
  conv_lhs => rw [← encodeCmd_fields w, mask, zero, encodeCmd_and, encodeCmd_inj]
  simp only [and_FF, and_FFFF, BitVec.and_zero, and_true]

/-- Settles O4: a row selects the encodings of its instruction, which are the words the decoder reads it from. -/
theorem commandDecoderFollowsTheOpcodeTable : Obligations.CommandDecoderFollowsTheOpcodeTable := by
  unfold Obligations.CommandDecoderFollowsTheOpcodeTable
  refine ⟨fun w r mem h => ?_, fun w i h => ?_, fun w => ?_⟩
  · obtain ⟨i, coded, command, name⟩ := exists_encode_of_selects mem h
    exact ⟨i, decodeCommand_eq_ok_iff.mpr ⟨coded, command⟩, name⟩
  · obtain ⟨coded, command⟩ := decodeCommand_eq_ok_iff.mp h
    exact exists_selects_of_encode coded command
  · rw [exists_decodeBeat_iff, and_beatMask_eq_zero]

/-! ### R94 -/

/-- The rows of R94 with mask and match written in format TREQ. -/
theorem requestTable_fields : requestTable =
    [⟨"TX_ACQUIRE", encodeTreq 1#2 0#32, encodeTreq 3#2 0xFFFFFFFF#32⟩,
     ⟨"TX_READ", encodeTreq 2#2 0#32, encodeTreq 3#2 0#32⟩,
     ⟨"TX_RELEASE", encodeTreq 3#2 0#32, encodeTreq 3#2 0xFFFFFFFF#32⟩] := by
  decide

/-- A row in format TREQ selects a request field by field. -/
theorem ReqRow.selects_fields {name : String} {top top' mtop : BitVec 2} {offset offset' moffset : Word} :
    ReqRow.selects ⟨name, encodeTreq top' offset', encodeTreq mtop moffset⟩ (encodeTreq top offset) = true ↔
      top &&& mtop = top' ∧ offset &&& moffset = offset' := by
  simp only [ReqRow.selects, beq_iff_eq, encodeTreq_and, encodeTreq_inj]

theorem and_top (x : BitVec 2) : x &&& 3#2 = x := BitVec.and_allOnes (x := x)

theorem and_FFFFFFFF (x : Word) : x &&& 0xFFFFFFFF#32 = x := BitVec.and_allOnes (x := x)

/-- A row of R94 selects the encodings of its own instruction. -/
theorem exists_encode_of_request_selects {w : ReqWord} {r : ReqRow} (mem : r ∈ requestTable) (h : r.selects w = true) :
    ∃ i : Instr, encode i = .transport w ∧ i.mnemonic = r.mnemonic := by
  rw [← encodeTreq_fields w] at h ⊢
  simp only [requestTable_fields, List.mem_cons, List.not_mem_nil, or_false] at mem
  rcases mem with rfl | rfl | rfl <;>
    simp only [ReqRow.selects_fields, and_top, and_FFFFFFFF, BitVec.and_zero, and_true] at h <;> simp only [h]
  · exact ⟨.txAcquire, rfl, rfl⟩
  · exact ⟨.txRead _, rfl, rfl⟩
  · exact ⟨.txRelease, rfl, rfl⟩

/-- The encoding of a request belongs to the request's own row of R94. -/
theorem exists_request_selects_of_encode {w : ReqWord} {i : Instr} (coded : encode i = .transport w) :
    ∃ r ∈ requestTable, r.selects w = true ∧ i.mnemonic = r.mnemonic := by
  rw [requestTable_fields]
  cases i with
  | txAcquire | txRead | txRelease => cases coded; simp [ReqRow.selects_fields, Instr.mnemonic]
  | _ => cases coded

/-- A request is idle exactly when TOP is zero (R94). -/
theorem decodeTreq_eq_idle_iff {w : ReqWord} : decodeTreq w = .error .idle ↔ Field.top w = 0#2 := by
  rcases group_cases (Field.top w) with top | top | top | top
  · simp [decodeTreq_of_top_zero top, top]
  · rw [decodeTreq_of_top_one top, top]
    split <;> simp
  · simp [decodeTreq_of_top_two top, top]
  · rw [decodeTreq_of_top_three top, top]
    split <;> simp

/-- A request is malformed exactly when an acquire or a release carries an offset (R94). -/
theorem decodeTreq_eq_reservedOffset_iff {w : ReqWord} : decodeTreq w = .error .reservedOffset ↔
    (Field.top w = 1#2 ∨ Field.top w = 3#2) ∧ Field.offset w ≠ 0#32 := by
  rcases group_cases (Field.top w) with top | top | top | top
  · simp [decodeTreq_of_top_zero top, top]
  · rw [decodeTreq_of_top_one top, top]
    split <;> simp [*]
  · simp [decodeTreq_of_top_two top, top]
  · rw [decodeTreq_of_top_three top, top]
    split <;> simp [*]

/-- Settles O5: the rows as in R93, and the two refusals by TOP. -/
theorem requestDecoderFollowsTheRequestTable : Obligations.RequestDecoderFollowsTheRequestTable := by
  unfold Obligations.RequestDecoderFollowsTheRequestTable
  refine ⟨fun w r mem h => ?_, fun w i h => ?_, fun _ => decodeTreq_eq_idle_iff,
    fun _ => decodeTreq_eq_reservedOffset_iff⟩
  · obtain ⟨i, coded, name⟩ := exists_encode_of_request_selects mem h
    exact ⟨i, decodeTreq_eq_ok_iff.mpr coded, name⟩
  · exact exists_request_selects_of_encode (decodeTreq_eq_ok_iff.mp h)

end Sys2Proof
end

section
/-! One step on each port (R94, R95, R97, R100, R101): the word that is taken, and what becomes of it. -/

namespace Sys2Proof.Machine

/-! ### A transaction by what its word decodes to -/

section
variable {pw : PortWord} {s : State}

theorem perform_of_ok {i : Instr} (h : decode s.ld pw = .ok i) : perform pw s = exec i s := by
  simp [perform, h]

theorem perform_of_idle (h : decode s.ld pw = .error .idle) : perform pw s = .next s := by
  simp [perform, h]

theorem perform_of_error {r : Reject} (h : decode s.ld pw = .error r) (real : r ≠ .idle) :
    perform pw s = .next (raiseFault .illegal pw.recorded s) := by
  simp [perform, h]

end

/-! ### The command port reads no word as idle -/

/-- While LDREM > 0 the command port's word is a data beat (R100). -/
theorem decode_command_of_loading {s : State} (w : CmdWord) (loading : 0 < s.ldrem) :
    decode s.ld (.command w) = decodeBeat w := by
  simp [decode, State.ld, Nat.ne_of_gt loading]

/-- While LDREM = 0 the command port's word is a command (R100). -/
theorem decode_command_of_not_loading {s : State} (w : CmdWord) (ready : s.ldrem = 0) :
    decode s.ld (.command w) = decodeCommand w := by
  simp [decode, State.ld, ready]

theorem whenReservedZero_ne_idle {n : Nat} (bits : BitVec n) (i : Instr) :
    whenReservedZero bits i ≠ .error .idle := by
  unfold whenReservedZero
  split <;> simp

theorem decodeCommand_ne_idle (w : CmdWord) : decodeCommand w ≠ .error .idle := by
  unfold decodeCommand
  split
  case h_2 | h_9 => simp
  all_goals exact whenReservedZero_ne_idle _ _

theorem decodeBeat_ne_idle (w : CmdWord) : decodeBeat w ≠ .error .idle := by
  unfold decodeBeat
  split <;> simp

/-- A command-port word is never idle, in either phase. -/
theorem decode_command_ne_idle (loading : Bool) (w : CmdWord) : decode loading (.command w) ≠ .error .idle := by
  cases loading with
  | false => exact decodeCommand_ne_idle w
  | true => exact decodeBeat_ne_idle w

/-! ### Steps -/

section
variable {s : State} {ts : List Turn}

/-- A command-port turn of the halted block passes (R234; log entry 4). -/
theorem step_command_of_halt (ht : s.turns = .command :: ts) (hh : s.halt = true) :
    step s = .next { s with turns := ts } := by
  simp [step, takeTurn, serve, serveCommand, ht, hh]

/-- A transport-port turn is the transaction of the next request, in every state (R101). -/
theorem step_transport {w : ReqWord} {rest : List ReqWord} (ht : s.turns = .transport :: ts) (hq : s.txQ = w :: rest) :
    step s = perform (.transport w) { s with turns := ts, txQ := rest } := by
  simp [step, takeTurn, serve, serveTransport, ht, hq]

/-- A status-port turn is the transaction of the next read, in every state (R101). -/
theorem step_status {i : StatusIdx} {rest : List StatusIdx} (ht : s.turns = .status :: ts) (hq : s.statusQ = i :: rest) :
    step s = perform (.status i) { s with turns := ts, statusQ := rest } := by
  simp [step, takeTurn, serve, serveStatus, ht, hq]

variable {w : CmdWord} {rest : List CmdWord}

/-- A command-port word that decodes is performed with the word taken. -/
theorem step_command_of_ok {i : Instr} (ht : s.turns = .command :: ts) (hq : s.hostQ = w :: rest) (hh : s.halt = false)
    (h : decode s.ld (.command w) = .ok i) : step s = exec i { s with turns := ts, hostQ := rest } := by
  rw [step_command ht hq hh]
  exact perform_of_ok h

/-- A command-port word that does not decode raises ILLEGAL with the word taken (R97). -/
theorem step_command_of_error {r : Reject} (ht : s.turns = .command :: ts) (hq : s.hostQ = w :: rest)
    (hh : s.halt = false) (h : decode s.ld (.command w) = .error r) :
    step s = .next (raiseFault .illegal w { s with turns := ts, hostQ := rest }) := by
  rw [step_command ht hq hh]
  refine perform_of_error h ?_
  rintro rfl
  exact decode_command_ne_idle _ w h

end

/-- Settles O7: the halted port's turn passes; else LDREM says which decoder reads the word. -/
theorem commandPortTakesTheNextWord : Obligations.CommandPortTakesTheNextWord := by
  unfold Obligations.CommandPortTakesTheNextWord
  intro s w rest ts ht hq
  refine ⟨step_command_of_halt ht, fun hh loading => ?_, fun hh ready => ?_⟩
  · rw [← decode_command_of_loading w loading]
    exact ⟨fun _ => step_command_of_ok ht hq hh, fun _ => step_command_of_error ht hq hh⟩
  · rw [← decode_command_of_not_loading w ready]
    exact ⟨fun _ => step_command_of_ok ht hq hh, fun _ => step_command_of_error ht hq hh⟩

/-- Settles O8: the request's transaction, by the three things it can decode to. -/
theorem transportPortTakesTheNextRequest : Obligations.TransportPortTakesTheNextRequest := by
  unfold Obligations.TransportPortTakesTheNextRequest
  intro s w rest ts ht hq
  rw [step_transport ht hq]
  exact ⟨fun _ h => perform_of_ok h, fun h => perform_of_idle h, fun h => perform_of_error h (by decide)⟩

/-- Settles O9: a status index always decodes, to the read of its register. -/
theorem statusPortTakesTheNextRead : Obligations.StatusPortTakesTheNextRead := by
  unfold Obligations.StatusPortTakesTheNextRead
  intro s i rest ts ht hq
  rw [step_status ht hq]
  exact perform_of_ok rfl

/-! ### Illegal words (R97) -/

/-- A word of no row of R93 does not decode as a command. -/
theorem exists_decodeCommand_error {w : CmdWord} (none : ∀ r ∈ commandTable, r.selects w = false) :
    ∃ r, decodeCommand w = .error r := by
  cases h : decodeCommand w with
  | error r => exact ⟨r, rfl⟩
  | ok i =>
    obtain ⟨coded, command⟩ := decodeCommand_eq_ok_iff.mp h
    obtain ⟨r, mem, selects, -⟩ := exists_selects_of_encode coded command
    simp [none r mem] at selects

/-- Settles O11: such a word does not decode in its phase, and on a running block the fault is recorded. -/
theorem illegalWordOnlyRaisesIllegal : Obligations.IllegalWordOnlyRaisesIllegal := by
  unfold Obligations.IllegalWordOnlyRaisesIllegal
  intro s w rest ts ht hq hh illegal
  obtain ⟨r, h⟩ : ∃ r, decode s.ld (.command w) = .error r := by
    obtain ⟨ready, none⟩ | ⟨loading, reserved⟩ := illegal
    · rw [decode_command_of_not_loading w ready]
      exact exists_decodeCommand_error none
    · rw [decode_command_of_loading w loading]
      exact ⟨.reservedBeatBits, by simp [decodeBeat, reserved]⟩
  rw [step_command_of_error ht hq hh h]
  exact congrArg Host.Outcome.next (raiseFault_of_running hh)

/-! ### Placed words (log entry 9) -/

/-- A table word that decodes fits a port, and the port's decoder reads it in the phase of log entry 9. -/
theorem exists_of_decodeTableWord {nbits w : Nat} {i : Instr} (h : decodeTableWord nbits w = some i) :
    ∃ pw, tablePortWord nbits w = some pw ∧ decode (tableWordIsBeat pw) pw = .ok i := by
  unfold decodeTableWord at h
  cases placed : tablePortWord nbits w with
  | none => simp [placed] at h
  | some pw =>
    refine ⟨pw, rfl, ?_⟩
    cases decoded : decode (tableWordIsBeat pw) pw with
    | error r => simp [placed, decoded, Except.toOption] at h
    | ok j => simpa [placed, decoded, Except.toOption] using h

/-- The command port reads a data beat exactly while LDREM > 0. -/
theorem isBeat_of_decode_command {loading : Bool} {w : CmdWord} {i : Instr}
    (h : decode loading (.command w) = .ok i) : i.isBeat = loading := by
  cases loading with
  | false => exact (decodeCommand_eq_ok_iff.mp h).2
  | true => exact (decodeBeat_eq_ok_iff.mp h).2

/-- No request is a data beat. -/
theorem isBeat_of_decodeTreq {w : ReqWord} {i : Instr} (h : decodeTreq w = .ok i) : i.isBeat = false := by
  have coded := decodeTreq_eq_ok_iff.mp h
  cases i with
  | beat => cases coded
  | _ => rfl

/-- The state that a placed command-port word finds: HALT cleared, LDREM where the word's phase needs it. -/
def readyFor (loading : Bool) (s : State) : State :=
  { s with halt := false, ldrem := if loading then (if s.ldrem = 0 then s.build.cells else s.ldrem) else 0 }

/-- The placed word is read in its own phase, because a grid has at least one cell (R6). -/
theorem ld_readyFor (loading : Bool) (s : State) : (readyFor loading s).ld = loading := by
  have := s.build.cells_pos
  cases loading with
  | false => rfl
  | true =>
    simp only [readyFor, State.ld, if_true, decide_eq_true_eq]
    split <;> omega

/-- The step after a command-port word is placed performs it on `readyFor`. -/
theorem step_placeFirst_command (w : CmdWord) (s : State) :
    step (placeFirst (.command w) s) = perform (.command w) (readyFor (tableWordIsBeat (.command w)) s) :=
  step_command rfl rfl rfl

/-- Settles O12: the placed word is performed in the phase it is read in; a beat's phase has LDREM > 0. -/
theorem placedTableWordIsPerformedNext : Obligations.PlacedTableWordIsPerformedNext := by
  unfold Obligations.PlacedTableWordIsPerformedNext
  intro s nbits w i h
  obtain ⟨pw, placed, decoded⟩ := exists_of_decodeTableWord h
  have place : s.withFetchWord nbits w = placeFirst pw s := by
    simp [State.withFetchWord, placeTableWord, placed]
  rw [place]
  cases pw with
  | command w =>
    have phase := ld_readyFor (tableWordIsBeat (.command w)) s
    refine ⟨readyFor (tableWordIsBeat (.command w)) s, ?_, rfl, fun beat => ?_⟩
    · rw [step_placeFirst_command]
      exact perform_of_ok (phase.symm ▸ decoded)
    · have loading := phase.trans ((isBeat_of_decode_command decoded).symm.trans beat)
      exact Nat.pos_of_ne_zero (of_decide_eq_true loading)
  | transport w =>
    refine ⟨s, (step_transport rfl rfl).trans (perform_of_ok decoded), rfl, fun beat => ?_⟩
    simp [isBeat_of_decodeTreq decoded] at beat
  | status idx =>
    refine ⟨s, (step_status rfl rfl).trans (perform_of_ok decoded), rfl, fun beat => ?_⟩
    cases decoded
    cases beat

/-! ### Words written out -/

/-- Settles O1: each word's fields are compared with the table's, in the phase that log entry 9 reads it in. -/
theorem sampleWordsDecode : Obligations.SampleWordsDecode := by
  unfold Obligations.SampleWordsDecode
  decide

/-- Settles O6: the all-zero word encodes both instructions, one in each phase. -/
theorem zeroWordIsNopOrABlackBeat : Obligations.ZeroWordIsNopOrABlackBeat := by
  unfold Obligations.ZeroWordIsNopOrABlackBeat
  exact ⟨Laws.RoundTrip.nop, Laws.RoundTrip.beat 0#8 0#8 0#8⟩

end Sys2Proof.Machine
end

section
/-! TX.FRAME (R103, R206): an acquire, a read of every offset in order, and a release. -/

namespace Sys2Proof.Machine

/-- A list of instructions whose first part answers a next state goes on from there. -/
theorem execAll_append_of_next {is js : List Instr} {s t : State} (h : execAll is s = .next t) :
    execAll (is ++ js) s = execAll js t := by
  induction is generalizing s with
  | nil => cases h; rfl
  | cons i is ih =>
    cases hi : exec i s with
    | next u =>
      rw [execAll_cons_of_next hi] at h
      rw [List.cons_append, execAll_cons_of_next hi, ih h]
    | fault r => simp [execAll, hi] at h
    | refused r => simp [execAll, hi] at h

/-- TX_ACQUIRE outside a hold takes it and does nothing else (R204). -/
theorem execTxAcquire_of_free {s : State} (free : s.txh = false) :
    execTxAcquire s = .next { s with txh := true, resetInHold := false } := by
  simp [execTxAcquire, free]

/-- TX_READ in a hold, of an assembled frame, answers the frame's byte and does nothing else (R206). -/
theorem execTxRead_of_frameByte {s : State} {offset : Word} {b : Byte} (held : s.txh = true) (assembled : s.fv = true)
    (byte : s.frameByte offset.toNat = some b) : execTxRead offset s = .next (s.replyTx b) := by
  have inside : offset.toNat < s.build.frameLen := by
    by_contra beyond
    simp [frameByte_beyond (Nat.le_of_not_lt beyond)] at byte
  simp [execTxRead, answerRead, held, assembled, byte, inside]

/-- Reads of some offsets of the frame, in a hold, answer the frame's bytes in the order of the offsets. -/
theorem execAll_txRead {s : State} {byte : Nat → Byte} {offsets : List Nat} (held : s.txh = true)
    (assembled : s.fv = true)
    (bytes : ∀ o ∈ offsets, o < s.build.frameLen ∧ s.frameByte o = some (byte o)) :
    execAll (offsets.map fun o => .txRead (BitVec.ofNat 32 o)) s =
      .next { s with txReplies := s.txReplies ++ offsets.map byte } := by
  induction offsets generalizing s with
  | nil => simp
  | cons o offsets ih =>
    obtain ⟨⟨inside, first⟩, rest⟩ := List.forall_mem_cons.mp bytes
    have operand : (BitVec.ofNat 32 o).toNat = o := by
      have := s.build.frameLen_le
      simp only [BitVec.toNat_ofNat]
      omega
    have read : exec (.txRead (BitVec.ofNat 32 o)) s = .next (s.replyTx (byte o)) :=
      execTxRead_of_frameByte held assembled (by rw [operand, first])
    rw [List.map_cons, execAll_cons_of_next read, ih (s := s.replyTx (byte o)) held assembled rest]
    simp [State.replyTx]

/-- Every offset of an assembled frame holds a byte: a pulse code, or the padding's zero (R27, R28). -/
theorem BlockInv.exists_frameByte {s : State} (inv : BlockInv s) (assembled : s.fv = true) {o : Nat}
    (inside : o < s.build.frameLen) : ∃ b, s.frameByte o = some b := by
  by_cases active : o < s.build.activeLen
  · obtain ⟨g, code⟩ := inv.fa_codes assembled o active
    exact ⟨_, (frameByte_active active).trans code⟩
  · exact ⟨_, frameByte_padding (Nat.le_of_not_lt active) inside⟩

/-- Settles O49: the reads between acquire and release answer the frame, by induction over the offsets. -/
theorem wholeFrameTransferReturnsTheFrame : Obligations.WholeFrameTransferReturnsTheFrame := by
  unfold Obligations.WholeFrameTransferReturnsTheFrame
  intro s inv free assembled
  choose! byte hbyte using fun o => inv.exists_frameByte assembled (o := o)
  have reads := execAll_txRead (s := { s with txh := true, resetInHold := false }) (byte := byte)
    (offsets := List.range s.build.frameLen) rfl assembled fun o ho =>
      ⟨List.mem_range.mp ho, hbyte o (List.mem_range.mp ho)⟩
  refine ⟨_, (List.range s.build.frameLen).map byte, ?_, by simp, fun o ho => ?_, rfl⟩
  · rw [Asm.instrs, List.cons_append, execAll_cons_of_next (i := .txAcquire) (execTxAcquire_of_free free),
      execAll_append_of_next reads, execAll_cons_of_next (i := .txRelease) (execTxRelease_of_held rfl)]
    simp [free]
  · simp [hbyte o ho, ho]

end Sys2Proof.Machine
end

section
/-! The assembler (R102, R103): what fits is encoded as written, what does not is refused, and the pseudo-instructions
expand. -/

namespace Sys2Proof

/-! ### Refusal and acceptance -/

theorem fits_iff {width n : Nat} : fits width n = true ↔ n < 2 ^ width := decide_eq_true_iff

theorem fits_eq_false_iff {width n : Nat} : fits width n = false ↔ 2 ^ width ≤ n := by
  simp [fits]

/-- A statement with an operand that does not fit is an error (R102). -/
theorem Asm.words_of_unfit {b : Build} {a : Asm} (unfit : a.wellFormed b = false) : a.words b = .error .doesNotFit := by
  simp [Asm.words, unfit]

/-- A statement whose operands fit gives the encodings of its instructions (R102). -/
theorem Asm.words_of_fit {b : Build} {a : Asm} (fit : a.wellFormed b = true) :
    a.words b = .ok ((a.instrs b).map encode) := by
  simp [Asm.words, fit]

/-! ### Operands as numbers -/

/-- A number that fits a field is the field's value (R96). -/
theorem toNat_ofNat_of_lt {width n : Nat} (h : n < 2 ^ width) : (BitVec.ofNat width n).toNat = n := by
  rw [BitVec.toNat_ofNat, Nat.mod_eq_of_lt h]

/-- DATA24 of a CMD word that carries a colour is the colour's number (R91). -/
theorem data24_encodeCmd_ofRgb (op : Byte) (row col : Half) {rgb : Nat} (h : rgb ≤ 0xFFFFFF) :
    ((encodeCmd op row col (Pixel.ofRgb rgb).red (Pixel.ofRgb rgb).green (Pixel.ofRgb rgb).blue).extractLsb' 0 24).toNat =
      rgb := by
  have colour := ofRgb_toNat h
  rw [BitVec.extractLsb'_toNat, Nat.shiftRight_zero, encodeCmd_toNat]
  omega

/-- The beat of a colour that fits: nothing above DATA24, and the colour's number in it (R92). -/
theorem beatOfRgb_fields {rgb : Nat} (h : rgb ≤ 0xFFFFFF) :
    (BitVec.ofNat 64 rgb).extractLsb' 24 40 = 0#40 ∧ ((BitVec.ofNat 64 rgb).extractLsb' 0 24).toNat = rgb := by
  simp only [← BitVec.toNat_inj, BitVec.extractLsb'_toNat, Nat.shiftRight_eq_div_pow, BitVec.toNat_ofNat]
  omega

/-- The beats of a list of colours that fit are the colours' numbers as words. -/
theorem encode_beats {cs : List Nat} (h : ∀ c ∈ cs, c ≤ 0xFFFFFF) :
    (cs.map beatOfRgb).map encode = (cs.map (BitVec.ofNat 64)).map .command := by
  simp only [List.map_map]
  exact List.map_congr_left fun c hc => encode_beatOfRgb (h c hc)

/-- TX.READ of an offset that fits (R94, R102). -/
theorem encode_txRead {o : Nat} (h : o < 2 ^ 32) :
    encode (.txRead (BitVec.ofNat 32 o)) = .transport (0x200000000#34 + BitVec.ofNat 34 o) := by
  simp only [encode]
  congr 1
  apply BitVec.eq_of_toNat_eq
  simp only [encodeTreq_toNat, BitVec.toNat_add, BitVec.toNat_ofNat]
  omega

/-- The reads of the offsets below a length that fits, in order (R103). -/
theorem encode_txReads {n : Nat} (h : n ≤ 2 ^ 32) :
    ((List.range n).map fun o => Instr.txRead (BitVec.ofNat 32 o)).map encode =
      (List.range n).map fun o => .transport (0x200000000#34 + BitVec.ofNat 34 o) := by
  rw [List.map_map]
  exact List.map_congr_left fun o ho => encode_txRead (Nat.lt_of_lt_of_le (List.mem_range.mp ho) h)

/-! ### Statement forms -/

section
variable (b : Build)

/-- A LOADGRID list of N colours that fit: the LOADGRID word and one beat each (R103). -/
theorem loadgridList_words {cs : List Nat} (length : cs.length = b.cells) (h : ∀ c ∈ cs, c ≤ 0xFFFFFF) :
    (Asm.loadgridList cs).words b =
      .ok (.command 0x0300000000000000#64 :: (cs.map (BitVec.ofNat 64)).map .command) := by
  have fit : (Asm.loadgridList cs).wellFormed b = true := by
    simp only [Asm.wellFormed, length, decide_true, Bool.true_and, List.all_eq_true, fits_iff]
    intro c hc
    have := h c hc
    omega
  rw [Asm.words_of_fit fit, Asm.instrs, List.map_cons, encode_beats h]
  rfl

/-- FILL is the list of N equal colours (R103). -/
theorem fill_words (c : Nat) :
    (Asm.fill c).words b = (Asm.loadgridList (List.replicate b.cells c)).words b := by
  have fit : (Asm.fill c).wellFormed b = (Asm.loadgridList (List.replicate b.cells c)).wellFormed b := by
    have : b.cells ≠ 0 := Nat.ne_of_gt b.cells_pos
    simp [Asm.wellFormed, List.all_replicate, this]
  simp only [Asm.words, fit, Asm.instrs, List.map_replicate]

/-- The words of WRPIX, field by field. -/
theorem wrpix_fields {row col rgb : Nat} (hrow : row ≤ 65535) (hcol : col ≤ 65535) (hrgb : rgb ≤ 0xFFFFFF) :
    ∃ w : CmdWord, (Asm.wrpix row col rgb).words b = .ok [.command w] ∧ w.extractLsb' 56 8 = 0x01#8 ∧
      (w.extractLsb' 40 16).toNat = row ∧ (w.extractLsb' 24 16).toNat = col ∧ (w.extractLsb' 0 24).toNat = rgb := by
  refine ⟨_, Asm.words_of_fit (by simp only [Asm.wellFormed, Bool.and_eq_true, fits_iff]; omega), op_encodeCmd .., ?_, ?_,
    data24_encodeCmd_ofRgb _ _ _ hrgb⟩
  · exact (congrArg BitVec.toNat (row_encodeCmd ..)).trans (toNat_ofNat_of_lt (by omega))
  · exact (congrArg BitVec.toNat (col_encodeCmd ..)).trans (toNat_ofNat_of_lt (by omega))

/-- The words of PHYSIDX, field by field. -/
theorem physidx_fields {row col : Nat} (hrow : row ≤ 65535) (hcol : col ≤ 65535) :
    ∃ w : CmdWord, (Asm.physidx row col).words b = .ok [.command w] ∧ w.extractLsb' 56 8 = 0x07#8 ∧
      (w.extractLsb' 40 16).toNat = row ∧ (w.extractLsb' 24 16).toNat = col ∧ w.extractLsb' 0 24 = 0#24 := by
  refine ⟨_, Asm.words_of_fit (by simp only [Asm.wellFormed, Bool.and_eq_true, fits_iff]; omega), op_encodeCmd .., ?_, ?_,
    encodeCmd_reserved24 ..⟩
  · exact (congrArg BitVec.toNat (row_encodeCmd ..)).trans (toNat_ofNat_of_lt (by omega))
  · exact (congrArg BitVec.toNat (col_encodeCmd ..)).trans (toNat_ofNat_of_lt (by omega))

/-- The words of ENCPIX, field by field. -/
theorem encpix_fields {rgb : Nat} (hrgb : rgb ≤ 0xFFFFFF) :
    ∃ w : CmdWord, (Asm.encpix rgb).words b = .ok [.command w] ∧ w.extractLsb' 56 8 = 0x06#8 ∧
      w.extractLsb' 24 32 = 0#32 ∧ (w.extractLsb' 0 24).toNat = rgb :=
  ⟨_, Asm.words_of_fit (fits_iff.mpr (by omega)), op_encodeCmd .., encodeCmd_reserved32 ..,
    data24_encodeCmd_ofRgb _ _ _ hrgb⟩

/-- The words of ENC, field by field. -/
theorem enc_fields {v : Nat} (hv : v ≤ 0xFF) :
    ∃ w : CmdWord, (Asm.enc v).words b = .ok [.command w] ∧ w.extractLsb' 56 8 = 0x05#8 ∧
      w.extractLsb' 8 48 = 0#48 ∧ (w.extractLsb' 0 8).toNat = v :=
  ⟨_, Asm.words_of_fit (fits_iff.mpr (by omega)), op_encodeCmd .., encodeCmd_reserved48 ..,
    (congrArg BitVec.toNat (blu_encodeCmd ..)).trans (toNat_ofNat_of_lt (by omega))⟩

/-- The words of TX.READ, field by field. -/
theorem txRead_fields {o : Nat} (ho : o < 2 ^ 32) :
    ∃ w : ReqWord, (Asm.txRead o).words b = .ok [.transport w] ∧ w.extractLsb' 32 2 = 2#2 ∧
      (w.extractLsb' 0 32).toNat = o :=
  ⟨_, Asm.words_of_fit (fits_iff.mpr ho), top_encodeTreq ..,
    (congrArg BitVec.toNat (offset_encodeTreq ..)).trans (toNat_ofNat_of_lt ho)⟩

/-- The words of .BEAT: the colour's number. -/
theorem beat_words {rgb : Nat} (hrgb : rgb ≤ 0xFFFFFF) :
    (Asm.beat rgb).words b = .ok [.command (BitVec.ofNat 64 rgb)] := by
  rw [Asm.words_of_fit (a := .beat rgb) (fits_iff.mpr (by omega)), Asm.instrs, List.map_singleton, encode_beatOfRgb hrgb]

/-- The words of FILL: LOADGRID and N times the colour's number. -/
theorem fill_words_of_fit {rgb : Nat} (hrgb : rgb ≤ 0xFFFFFF) : (Asm.fill rgb).words b =
    .ok (.command 0x0300000000000000#64 :: List.replicate b.cells (.command (BitVec.ofNat 64 rgb))) := by
  rw [fill_words, loadgridList_words b List.length_replicate fun c hc => (List.eq_of_mem_replicate hc) ▸ hrgb,
    List.map_replicate, List.map_replicate]

/-- The words of SREAD: the index. -/
theorem sread_words {i : Nat} (hi : i ≤ 15) : (Asm.sread i).words b = .ok [.status (BitVec.ofNat 4 i)] :=
  Asm.words_of_fit (fits_iff.mpr (by omega))

/-- An operand of LOADGRID's list that does not fit makes the whole statement an error. -/
theorem loadgridList_unfit {cs : List Nat} {rgb : Nat} (mem : rgb ∈ cs) (h : 0xFFFFFF < rgb) :
    (Asm.loadgridList cs).wellFormed b = false := by
  simp only [Asm.wellFormed, Bool.and_eq_false_iff, List.all_eq_false]
  exact .inr ⟨rgb, mem, by rw [fits_iff]; omega⟩

end

/-- Settles O55: an operand out of bounds makes the statement ill-formed, one within them is its field. -/
theorem assemblerNeverTruncatesAnOperand : Obligations.AssemblerNeverTruncatesAnOperand := by
  unfold Obligations.AssemblerNeverTruncatesAnOperand
  intro b
  have unfit {width n : Nat} (h : 2 ^ width ≤ n) : fits width n = false := fits_eq_false_iff.mpr h
  refine ⟨fun row col rgb h => Asm.words_of_unfit ?_, fun row col h => Asm.words_of_unfit ?_, fun rgb h => ?_,
    fun cs rgb mem h => Asm.words_of_unfit (loadgridList_unfit b mem h),
    fun v h => Asm.words_of_unfit (unfit h), fun o h => Asm.words_of_unfit (unfit h),
    fun i h => Asm.words_of_unfit (unfit h),
    fun _ _ _ => wrpix_fields b, fun _ _ => physidx_fields b, fun rgb h => ?_, fun cs length h => ?_,
    fun _ => enc_fields b, fun _ => txRead_fields b,
    fun i h => ⟨_, sread_words b h, toNat_ofNat_of_lt (Nat.lt_succ_of_le h)⟩⟩
  · simp only [Asm.wellFormed, Bool.and_eq_false_iff, fits_eq_false_iff]
    omega
  · simp only [Asm.wellFormed, Bool.and_eq_false_iff, fits_eq_false_iff]
    omega
  · exact ⟨Asm.words_of_unfit (unfit h), Asm.words_of_unfit (unfit h), Asm.words_of_unfit (unfit h)⟩
  · exact ⟨⟨_, beat_words b h, beatOfRgb_fields h⟩, encpix_fields b h, _, fill_words_of_fit b h, beatOfRgb_fields h⟩
  · refine ⟨cs.map (BitVec.ofNat 64), loadgridList_words b length h, ?_, ?_⟩
    · exact List.forall_mem_map.mpr fun c hc => (beatOfRgb_fields (h c hc)).1
    · rw [List.map_map]
      exact (List.map_congr_left fun c hc => (beatOfRgb_fields (h c hc)).2).trans (List.map_id' cs)

/-- Settles O56: each pseudo-instruction by its words. -/
theorem pseudoInstructionsExpand : Obligations.PseudoInstructionsExpand := by
  unfold Obligations.PseudoInstructionsExpand
  refine ⟨fun b cs length => Asm.words_of_unfit ?_, fun b cs length h => ?_, fill_words, fun b => ?_⟩
  · simp [Asm.wellFormed, length]
  · rw [loadgridList_words b length fun c hc => Nat.le_of_lt_succ (h c hc), List.map_map]
    rfl
  · rw [Asm.words_of_fit rfl, Asm.instrs, List.map_append, List.map_cons, encode_txReads b.frameLen_le]
    rfl

end Sys2Proof
end

section
/-! The Pixel Timing Encoder (R120 to R124): a channel is its four groups, the pulse-code table and its inverse carry them
there and back, and ENC and ENCPIX write the codes. -/

namespace Sys2Proof

/-! ### The pulse-code table and its inverse (R123c) -/

/-- The codes are pairwise distinct (R7), so the first code that `dec` finds is the group's own. -/
theorem PulseCode.dec_lookup (p : PulseCode) (g : BitVec 2) : p.dec (p.lookup g) = some g := by
  obtain ⟨⟨h01, h02, h03, h12, h13, h23⟩, -⟩ := p.distinct
  rcases group_cases g with rfl | rfl | rfl | rfl
  · simp [PulseCode.dec]
  · simp [PulseCode.dec, h01.symm]
  · simp [PulseCode.dec, h02.symm, h12.symm]
  · simp [PulseCode.dec, h03.symm, h13.symm, h23.symm]

/-- A byte that `dec` reads is the code of what it reads. -/
theorem PulseCode.lookup_of_dec {p : PulseCode} {b : Byte} {g : BitVec 2} (h : p.dec b = some g) : p.lookup g = b := by
  unfold PulseCode.dec at h
  split_ifs at h with h0 h1 h2 h3 <;> cases h
  · exact h0.symm
  · exact h1.symm
  · exact h2.symm
  · exact h3.symm

/-! ### Words with a nonzero reserved bit (R97) -/

theorem whenReservedZero_of_ne {n : Nat} {bits : BitVec n} (i : Instr) (h : bits ≠ 0#n) :
    whenReservedZero bits i = .error .reservedBits := if_neg h

theorem decodeCommand_of_op_enc {w : CmdWord} (h : Field.op w = 0x05#8) :
    decodeCommand w = whenReservedZero (w.extractLsb' 8 48) (.enc (Field.blu w)) := by
  simp [decodeCommand, h]

theorem decodeCommand_of_op_encpix {w : CmdWord} (h : Field.op w = 0x06#8) :
    decodeCommand w =
      whenReservedZero (w.extractLsb' 24 32) (.encpix (Field.red w) (Field.grn w) (Field.blu w)) := by
  simp [decodeCommand, h]

namespace Machine

/-! ### A channel and its groups (R120) -/

/-- The shift and mask of R120 give the bits `[2*i+1 : 2*i]`. -/
theorem channelGroup_eq_extract (v : Byte) (i : Nat) : channelGroup v i = v.extractLsb' (2 * i) 2 := by
  rw [channelGroup, BitVec.setWidth_and, ← BitVec.setWidth_ushiftRight_eq_extractLsb]
  exact and_top _

/-- The four groups, the highest first, are the channel. -/
theorem channelGroups_append (v : Byte) :
    channelGroup v 3 ++ channelGroup v 2 ++ channelGroup v 1 ++ channelGroup v 0 = v := by
  simp (disch := decide) only [channelGroup_eq_extract, Nat.reduceMul,
    BitVec.extractLsb'_append_extractLsb'_eq_extractLsb']
  exact BitVec.extractLsb'_eq_self

/-- Byte `i` of a channel's code decodes to the channel's i-th group (R123d). -/
theorem dec_encChannel_byte (p : PulseCode) (v : Byte) {i : Nat} (hi : i < 4) :
    p.dec ((encChannel p v).extractLsb' (8 * i) 8) = some (channelGroup v i) := by
  rw [encChannel_byte p v hi, p.dec_lookup]

/-- Equal codes decode to equal groups, which make equal channels (R123e). -/
theorem encChannel_injective (p : PulseCode) : Function.Injective (encChannel p) := by
  intro v1 v2 h
  have group {i : Nat} (hi : i < 4) : channelGroup v1 i = channelGroup v2 i := by
    apply Option.some.inj
    rw [← dec_encChannel_byte p v1 hi, ← dec_encChannel_byte p v2 hi, h]
  rw [← channelGroups_append v1, ← channelGroups_append v2, group (i := 3) (by decide), group (i := 2) (by decide),
    group (i := 1) (by decide), group (i := 0) (by decide)]

/-- The three channels of a pixel's code, in the order of R121. -/
theorem encPixel_channels (p : PulseCode) (px : Pixel) :
    (encPixel p px).extractLsb' 64 32 = encChannel p px.green ∧
    (encPixel p px).extractLsb' 32 32 = encChannel p px.red ∧
    (encPixel p px).extractLsb' 0 32 = encChannel p px.blue := by
  rw [encPixel]
  refine ⟨?green, ?red, BitVec.extractLsb'_append_eq_right⟩
  case green => rw [BitVec.extractLsb'_append_eq_of_le (by decide), BitVec.extractLsb'_append_eq_left]
  case red => rw [BitVec.extractLsb'_append_eq_of_le (by decide), BitVec.extractLsb'_append_eq_right]

/-- Settles O23: the groups that the four bytes decode to are the channel's own. -/
theorem encoderRoundTrip : Obligations.EncoderRoundTrip := by
  unfold Obligations.EncoderRoundTrip
  refine ⟨PulseCode.dec_lookup, fun p b g => PulseCode.lookup_of_dec, fun p v => ?_,
    fun p v1 v2 h => encChannel_injective p h, encPixel_channels⟩
  have byte {i : Nat} (hi : i < 4) := dec_encChannel_byte p v hi
  exact ⟨channelGroup v 3, channelGroup v 2, channelGroup v 1, channelGroup v 0, byte (i := 3) (by decide),
    byte (i := 2) (by decide), byte (i := 1) (by decide), byte (i := 0) (by decide), channelGroups_append v⟩

/-! ### The commands (R122, R124) -/

/-- Settles O21: the channel's groups are its bit fields, and OP 0x05 has the reserved bits [55:8]. -/
theorem encWritesTheChannelCodeToRes0 : Obligations.EncWritesTheChannelCodeToRes0 := by
  unfold Obligations.EncWritesTheChannelCodeToRes0
  refine ⟨fun v s => ?_, fun w op reserved => ?_⟩
  · simp only [exec_enc, execEnc, encChannel, channelGroup_eq_extract]
  · rw [decodeCommand_of_op_enc op, whenReservedZero_of_ne _ reserved]

/-- Settles O22: ENCPIX as the model defines it, and OP 0x06 has the reserved bits [55:24]. -/
theorem encpixWritesGreenRedBlue : Obligations.EncpixWritesGreenRedBlue := by
  unfold Obligations.EncpixWritesGreenRedBlue
  refine ⟨fun red green blue s => exec_encpix red green blue s, fun w op reserved => ?_⟩
  rw [decodeCommand_of_op_encpix op, whenReservedZero_of_ne _ reserved]

end Machine
end Sys2Proof
end

section
/-! The Serpentine Address Mapper (R140 to R143): where a row's cells lie in the chain, and what PHYSIDX answers. -/

namespace Sys2Proof.Machine

/-! ### The laws of the mapper (R141) -/

/-- A row's cells stay in the row's own W positions. -/
theorem phys_row_block (b : Build) (row : Nat) {col : Nat} (hcol : col < b.width) :
    row * b.width ≤ phys b row col ∧ phys b row col ≤ row * b.width + b.width - 1 := by
  unfold phys
  split <;> omega

/-- A cell of the grid has a physical index below N, because its row's positions lie below N. -/
theorem phys_lt_cells (b : Build) {row col : Nat} (hrow : row < b.height) (hcol : col < b.width) :
    phys b row col < b.cells := by
  have rowEnd := row_block_le b hrow
  have inBlock := (phys_row_block b row hcol).2
  omega

/-- Rows `row` and `row + 1` meet end to end in one column: col 0 below an even row, col W-1 below an odd one. -/
theorem phys_adjacent_rows (b : Build) (row : Nat) :
    phys b row (if row % 2 = 0 then 0 else b.width - 1) = row * b.width + b.width - 1 ∧
    phys b (row + 1) (if row % 2 = 0 then 0 else b.width - 1) = (row + 1) * b.width := by
  have hw : 0 < b.width := b.bounds.1
  unfold phys
  obtain even | odd := Nat.mod_two_eq_zero_or_one row
  · have next : (row + 1) % 2 = 1 := by omega
    simp only [even, next, if_true, zero_ne_one, if_false]
    omega
  · have next : (row + 1) % 2 = 0 := by omega
    simp only [odd, next, if_true, zero_ne_one, one_ne_zero, if_false]
    omega

/-- In a grid of one column the physical index is the row. -/
theorem phys_of_one_column {b : Build} (one : b.width = 1) (row : Nat) : phys b row 0 = row := by
  simp [phys, one]

/-- Settles O25: the row block gives the range, and `physInv` undoes `phys` on either side. -/
theorem serpentineIsABijection : Obligations.SerpentineIsABijection := by
  unfold Obligations.SerpentineIsABijection
  intro b
  refine ⟨fun row col hrow hcol => ?_, fun p hp => ?_, fun row _ => phys_adjacent_rows b row, phys_of_one_column⟩
  · obtain ⟨above, below⟩ := phys_row_block b row hcol
    exact ⟨phys_lt_cells b hrow hcol, above, below, physInv_phys b row hcol⟩
  · obtain ⟨hrow, hcol⟩ := physInv_lt b hp
    exact ⟨hrow, hcol, phys_physInv b p⟩

/-! ### The command (R143) -/

theorem execPhysidx_of_inRange {row col : Half} {s : State} (inside : inRange s.build row col = true) :
    execPhysidx row col s = .next { s with
      res0 := BitVec.ofNat 32 (phys s.build row.toNat col.toNat)
      res1 := BitVec.ofNat 32 (12 * phys s.build row.toNat col.toNat) } := if_pos inside

theorem execPhysidx_of_not_inRange {row col : Half} {s : State} (outside : inRange s.build row col = false) :
    execPhysidx row col s = .next (raiseFault .range (recordedWord (.physidx row col)) s) :=
  if_neg (ne_true_of_eq_false outside)

/-- The frame offset of a cell of the grid fits RES1, because the whole frame has at most 2^32 bytes (R8). -/
theorem frameOffset_lt (b : Build) {row col : Nat} (hrow : row < b.height) (hcol : col < b.width) :
    12 * phys b row col < 2 ^ 32 := by
  have inside := phys_lt_cells b hrow hcol
  have frame := b.frameLen_le
  simp only [Build.frameLen, Build.activeLen] at frame
  omega

theorem decodeCommand_of_op_physidx {w : CmdWord} (h : Field.op w = 0x07#8) :
    decodeCommand w = whenReservedZero (w.extractLsb' 0 24) (.physidx (Field.row w) (Field.col w)) := by
  simp [decodeCommand, h]

/-- Settles O24: in range both results fit their registers, and OP 0x07 has the reserved bits [23:0]. -/
theorem physidxWritesIndexAndOffset : Obligations.PhysidxWritesIndexAndOffset := by
  unfold Obligations.PhysidxWritesIndexAndOffset
  refine ⟨fun row col s hrow hcol => ?_, fun row col s outside => ?_, fun w op reserved => ?_⟩
  · have offset := frameOffset_lt s.build hrow hcol
    have res0 := toNat_ofNat_of_lt (width := 32) (show phys s.build row.toNat col.toNat < 2 ^ 32 by omega)
    refine ⟨_, _, (exec_physidx row col s).trans (execPhysidx_of_inRange ((inRange_iff _ row col).mpr ⟨hrow, hcol⟩)),
      res0, ?_⟩
    rw [res0, toNat_ofNat_of_lt offset]
  · exact (exec_physidx row col s).trans (execPhysidx_of_not_inRange ((inRange_eq_false_iff _ row col).mpr outside))
  · rw [decodeCommand_of_op_physidx op, whenReservedZero_of_ne _ reserved]

end Sys2Proof.Machine
end

section
/-! The Transmit Frame Assembler (R160 to R163): where ASSEMBLE puts each pixel, what its frame consists of, when it
faults, and that no other instruction writes the frame. -/

namespace Sys2Proof

theorem decodeCommand_of_op_assemble {w : CmdWord} (h : Field.op w = 0x04#8) :
    decodeCommand w = whenReservedZero (w.extractLsb' 0 56) .assemble := by
  simp [decodeCommand, h]

namespace Machine

/-! ### A successful ASSEMBLE (R161, R162) -/

/-- The bytes at the physical index of a cell are those of the cell itself. -/
theorem codeByte_phys (s : State) (row : Nat) {col : Nat} (hcol : col < s.build.width) (j : Nat) :
    s.codeByte (phys s.build row col) j =
      (encPixel s.build.pulse (s.cell (row * s.build.width + col))).extractLsb' (8 * (11 - j)) 8 := by
  rw [State.codeByte, physInv_phys s.build row hcol]

/-- Settles O31: `read_assembleFrame` at the cell's physical index, which lies below N. -/
theorem assembleWritesEveryPixelAtItsPlace : Obligations.AssembleWritesEveryPixelAtItsPlace := by
  unfold Obligations.AssembleWritesEveryPixelAtItsPlace
  intro s hfa free full
  refine ⟨_, execAssemble_of_populated free full, rfl, fun row col j hrow hcol hj => ?_,
    fun _ above below => frameByte_padding above below, rfl, wf_assembleFrame hfa⟩
  rw [frameByte_assembled hfa (phys_lt_cells s.build hrow hcol) hj, codeByte_phys s row hcol]

/-- Settles O33: the three regions of the frame, the active one holding the codes of the groups, none of them zero. -/
theorem assembledFrameIsCodesThenZeros : Obligations.AssembledFrameIsCodesThenZeros := by
  unfold Obligations.AssembledFrameIsCodesThenZeros
  intro s hfa free full
  refine ⟨_, execAssemble_of_populated free full, fun o active => ?_,
    fun _ above below => frameByte_padding above below, fun _ beyond => frameByte_beyond beyond⟩
  obtain ⟨g, code⟩ := read_assembleFrame_code hfa active
  exact ⟨g, (frameByte_active (s := { s with fa := assembleFrame s, fv := true }) active).trans code,
    s.build.pulse.lookup_ne_zero g⟩

/-! ### A faulting ASSEMBLE (R160, R231) -/

theorem recordedWord_assemble : recordedWord .assemble = 0x0400000000000000#64 := by decide

theorem execAssemble_of_held {s : State} (held : s.txh = true) :
    execAssemble s = .next (raiseFault .txBusy (recordedWord .assemble) s) := if_pos held

theorem execAssemble_of_not_populated {s : State} (free : s.txh = false) (undefined : s.populated = false) :
    execAssemble s = .next (raiseFault .undefPixel (recordedWord .assemble) s) := by
  simp [execAssemble, free, undefined]

theorem populated_eq_false {s : State} {k : Nat} (hk : k < s.build.cells) (undefined : s.defBit k = false) :
    s.populated = false := by
  refine eq_false_of_ne_true fun full => ?_
  simp [(populated_iff s).mp full k hk] at undefined

/-- Settles O32: a hold faults first, then one undefined cell, and OP 0x04 has the reserved bits [55:0]. -/
theorem assembleFaultsInOrder : Obligations.AssembleFaultsInOrder := by
  unfold Obligations.AssembleFaultsInOrder
  refine ⟨fun s held => ?_, fun s k free hk undefined => ?_, fun w op reserved => ?_, fun cause word s => ?_⟩
  · rw [exec_assemble, execAssemble_of_held held, recordedWord_assemble]
  · rw [exec_assemble, execAssemble_of_not_populated free (populated_eq_false hk undefined), recordedWord_assemble]
  · rw [decodeCommand_of_op_assemble op, whenReservedZero_of_ne _ reserved]
  · exact ⟨raiseFault_fa cause word s, raiseFault_fv cause word s⟩

/-! ### The only writer (R163) -/

/-- R163: FV is set by ASSEMBLE only. -/
theorem Effect.fv_eq {i : Instr} {s t : State} (effect : Effect s i t) (other : i ≠ .assemble) : t.fv = s.fv := by
  cases effect with
  | assemble => exact absurd rfl other
  | txRead checked | txReadFree checked => rcases checked with rfl | ⟨c, -, rfl⟩ <;> simp
  | _ => simp

/-- Settles O37: of the effects, ASSEMBLE's alone touches FA or FV, and the frame's bytes follow the build and FA. -/
theorem onlyAssembleWritesTheFrame : Obligations.OnlyAssembleWritesTheFrame := by
  unfold Obligations.OnlyAssembleWritesTheFrame
  intro i s t h other
  have effect := effect_of_exec h
  have fa := effect.fa_eq other
  exact ⟨fa, effect.fv_eq other, frameByte_congr effect.build_eq fa⟩

end Machine
end Sys2Proof
end

section
/-! The RGB Frame Buffer (R180 to R186): a cell that WRPIX or a data beat writes, the whole grid that CLEAR or a load
writes, and the frame of a cleared grid. -/

namespace Sys2Proof

/-! ### Words with a nonzero reserved bit (R92, R97) -/

theorem decodeCommand_of_op_clear {w : CmdWord} (h : Field.op w = 0x02#8) :
    decodeCommand w = whenReservedZero (w.extractLsb' 0 56) .clear := by
  simp [decodeCommand, h]

theorem decodeCommand_of_op_loadgrid {w : CmdWord} (h : Field.op w = 0x03#8) :
    decodeCommand w = whenReservedZero (w.extractLsb' 0 56) .loadgrid := by
  simp [decodeCommand, h]

theorem decodeBeat_of_reserved_ne {w : CmdWord} (h : w.extractLsb' 24 40 ≠ 0#40) :
    decodeBeat w = .error .reservedBeatBits := if_neg h

namespace Machine

/-! ### One cell (R180, R186) -/

section
variable {s : State} {k : Nat}

theorem cell_writeCell_same (hk : k < s.grid.length) (px : Pixel) : (s.writeCell k px).cell k = px := by
  simp [State.cell, hk]

theorem defBit_writeCell_same (hk : k < s.defd.length) (px : Pixel) : (s.writeCell k px).defBit k = true := by
  simp [State.defBit, hk]

theorem cell_writeCell_of_ne {j : Nat} (other : j ≠ k) (px : Pixel) : (s.writeCell k px).cell j = s.cell j := by
  simp [State.cell, other.symm]

theorem defBit_writeCell_of_ne {j : Nat} (other : j ≠ k) (px : Pixel) :
    (s.writeCell k px).defBit j = s.defBit j := by
  simp [State.defBit, other.symm]

/-- On arrays of N cells, writing cell `k` of the grid gives it the colour and DEF = 1, and no other cell changes. -/
theorem writeCell_writes_one_cell (grid : s.grid.length = s.build.cells) (defd : s.defd.length = s.build.cells)
    (hk : k < s.build.cells) (px : Pixel) :
    (s.writeCell k px).cell k = px ∧ (s.writeCell k px).defBit k = true ∧
      ∀ j, j ≠ k → (s.writeCell k px).cell j = s.cell j ∧ (s.writeCell k px).defBit j = s.defBit j :=
  ⟨cell_writeCell_same (grid ▸ hk) px, defBit_writeCell_same (defd ▸ hk) px, fun _ other =>
    ⟨cell_writeCell_of_ne other px, defBit_writeCell_of_ne other px⟩⟩

end

/-- The logical index of a cell of the grid is below N (R24). -/
theorem logicalIndex_lt_cells (b : Build) {row col : Nat} (hrow : row < b.height) (hcol : col < b.width) :
    logicalIndex b row col < b.cells := by
  have rowEnd := row_block_le b hrow
  unfold logicalIndex
  omega

/-- During a load the next beat's cell is below N (R186). -/
theorem beatIndex_lt_cells {s : State} (loading : s.ldrem ≠ 0) : s.beatIndex < s.build.cells := by
  have := s.build.cells_pos
  unfold State.beatIndex
  omega

theorem execWrpix_of_inRange {row col : Half} {s : State} (red green blue : Byte)
    (inside : inRange s.build row col = true) : execWrpix row col red green blue s =
      .next (s.writeCell (logicalIndex s.build row.toNat col.toNat) ⟨red, green, blue⟩) := if_pos inside

theorem execWrpix_of_not_inRange {row col : Half} {s : State} (red green blue : Byte)
    (outside : inRange s.build row col = false) : execWrpix row col red green blue s =
      .next (raiseFault .range (recordedWord (.wrpix row col red green blue)) s) :=
  if_neg (ne_true_of_eq_false outside)

/-- Settles O26: in range the logical index is below N, so one cell is written; out of range the word is recorded. -/
theorem wrpixWritesOneCell : Obligations.WrpixWritesOneCell := by
  unfold Obligations.WrpixWritesOneCell
  refine ⟨fun row col red green blue s grid defd hrow hcol => ?_, fun row col red green blue s outside => ?_⟩
  · obtain ⟨cell, defBit, others⟩ :=
      writeCell_writes_one_cell grid defd (logicalIndex_lt_cells s.build hrow hcol) ⟨red, green, blue⟩
    exact ⟨_, execWrpix_of_inRange red green blue ((inRange_iff _ row col).mpr ⟨hrow, hcol⟩), cell, defBit, others,
      rfl, frameByte_congr rfl rfl⟩
  · exact execWrpix_of_not_inRange red green blue ((inRange_eq_false_iff _ row col).mpr outside)

/-- Settles O29: cell N - LDREM lies in the grid; a malformed beat does not decode, so its step only raises ILLEGAL. -/
theorem beatLoadsTheNextCell : Obligations.BeatLoadsTheNextCell := by
  unfold Obligations.BeatLoadsTheNextCell
  refine ⟨fun red green blue s grid defd loading _ => ?_, fun w => decodeBeat_of_reserved_ne,
    fun s w rest ts turns offered running loading reserved => ?_⟩
  · have loading := Nat.ne_of_gt loading
    obtain ⟨cell, defBit, others⟩ :=
      writeCell_writes_one_cell grid defd (beatIndex_lt_cells loading) ⟨red, green, blue⟩
    exact ⟨_, execBeat_of_loading red green blue loading, cell, defBit, others, rfl, rfl, frameByte_congr rfl rfl⟩
  · have malformed := (decode_command_of_loading w loading).trans (decodeBeat_of_reserved_ne reserved)
    exact ⟨_, step_command_of_error turns offered running malformed, by simp [running]⟩

/-! ### A load (R184, R186, R103) -/

/-- The state in which a load under way ends when its beats carry `colours`: the cells from N - LDREM on have the
colours in logical order. -/
def State.loadRest (s : State) (colours : List Pixel) : State :=
  { s with
    grid := s.grid.take s.beatIndex ++ colours
    defd := s.defd.take s.beatIndex ++ List.replicate colours.length true
    ldrem := 0 }

/-- A list kept up to an element just set, with a rest after it, is the list kept before that element, the element
and the rest. -/
theorem take_succ_set_append {α : Type} {l : List α} {k : Nat} (hk : k < l.length) (a : α) (rest : List α) :
    (l.set k a).take (k + 1) ++ rest = l.take k ++ a :: rest := by
  rw [List.take_succ_eq_append_getElem (by simpa using hk), List.take_set_of_le le_rfl, List.getElem_set_self,
    List.append_assoc, List.singleton_append]

section
variable {s : State} (grid : s.grid.length = s.build.cells) (defd : s.defd.length = s.build.cells)
include grid defd

/-- A load with no beat left has ended. -/
theorem loadRest_nil (ended : s.ldrem = 0) : s.loadRest [] = s := by
  have all : s.beatIndex = s.build.cells := by simp [State.beatIndex, ended]
  have gridAll : s.grid.take s.beatIndex ++ [] = s.grid := by simp [all, grid]
  have defdAll : s.defd.take s.beatIndex ++ List.replicate ([] : List Pixel).length true = s.defd := by
    simp [all, defd]
  rw [State.loadRest, gridAll, defdAll, ← ended]

/-- A beat takes the first colour off the rest of the load, and writes it where the rest begins (R186). -/
theorem loadRest_cons (c : Pixel) (cs : List Pixel) (loading : s.ldrem ≠ 0) (bound : s.ldrem ≤ s.build.cells) :
    State.loadRest { s.writeCell s.beatIndex c with ldrem := s.ldrem - 1 } cs = s.loadRest (c :: cs) := by
  have inside := beatIndex_lt_cells loading
  have next : s.build.cells - (s.ldrem - 1) = s.beatIndex + 1 := by
    unfold State.beatIndex
    omega
  have gridRest := take_succ_set_append (grid ▸ inside) c cs
  have defdRest := take_succ_set_append (defd ▸ inside) true (List.replicate cs.length true)
  rw [← next] at gridRest defdRest
  exact congrArg₂ (fun g d => { s with grid := g, defd := d, ldrem := 0 }) gridRest defdRest

end

/-- As many beats as LDREM says end the load (R186). -/
theorem execAll_beats {s : State} {colours : List Pixel} (grid : s.grid.length = s.build.cells)
    (defd : s.defd.length = s.build.cells) (remaining : s.ldrem = colours.length) (bound : s.ldrem ≤ s.build.cells) :
    execAll (colours.map fun c => .beat c.red c.green c.blue) s = .next (s.loadRest colours) := by
  induction colours generalizing s with
  | nil => rw [loadRest_nil grid defd remaining, List.map_nil, execAll_nil]
  | cons c cs ih =>
    have loading : s.ldrem ≠ 0 := by simp [remaining]
    rw [List.map_cons,
      execAll_cons_of_next (i := .beat c.red c.green c.blue) (execBeat_of_loading c.red c.green c.blue loading), ih,
      ← loadRest_cons grid defd c cs loading bound]
    · simpa using grid
    · simpa using defd
    · simp [remaining]
    · exact (Nat.sub_le _ _).trans bound

/-- Settles O30: with LDREM = N the rest of the load is the whole grid. -/
theorem loadReplacesTheWholeGrid : Obligations.LoadReplacesTheWholeGrid := by
  unfold Obligations.LoadReplacesTheWholeGrid
  intro s colours grid defd length
  rw [execAll_cons_of_next (i := .loadgrid) rfl]
  refine ⟨_, execAll_beats grid defd length.symm le_rfl, ?_, ?_, rfl, rfl⟩
  · simp [State.loadRest, State.beatIndex]
  · rw [populated_iff]
    intro k hk
    have hk : k < colours.length := length ▸ hk
    simp [State.loadRest, State.beatIndex, State.defBit, hk]

/-- Settles O28: LDREM becomes N, which is not 0 (R6), and OP 0x03 has the reserved bits [55:0]. -/
theorem loadgridExpectsNBeats : Obligations.LoadgridExpectsNBeats := by
  unfold Obligations.LoadgridExpectsNBeats
  refine ⟨fun s => ⟨_, exec_loadgrid s, rfl, ?_⟩, fun w op reserved => ?_⟩
  · exact decide_eq_true (Nat.ne_of_gt s.build.cells_pos)
  · rw [decodeCommand_of_op_loadgrid op, whenReservedZero_of_ne _ reserved]

/-! ### CLEAR (R182) -/

/-- The state after CLEAR. -/
def State.cleared (s : State) : State :=
  { s with
    grid := List.replicate s.build.cells Pixel.black
    defd := List.replicate s.build.cells true }

theorem exec_clear_eq_cleared (s : State) : exec .clear s = .next s.cleared := rfl

@[simp] theorem cell_cleared (s : State) (k : Nat) : s.cleared.cell k = Pixel.black := by
  simp [State.cell, State.cleared, List.getElem?_getD_replicate_default_eq]

theorem defBit_cleared {s : State} {k : Nat} (hk : k < s.build.cells) : s.cleared.defBit k = true := by
  simp [State.defBit, State.cleared, hk]

theorem populated_cleared (s : State) : s.cleared.populated = true :=
  (populated_iff _).mpr fun _ => defBit_cleared

/-- Settles O27: the arrays that CLEAR makes hold one value throughout, and OP 0x02 has the reserved bits [55:0]. -/
theorem clearBlackensEveryCell : Obligations.ClearBlackensEveryCell := by
  unfold Obligations.ClearBlackensEveryCell
  refine ⟨fun s => ⟨_, exec_clear_eq_cleared s, fun k hk => ⟨cell_cleared s k, defBit_cleared hk⟩,
    List.length_replicate, List.length_replicate, rfl, frameByte_congr rfl rfl⟩, fun w op reserved => ?_⟩
  rw [decodeCommand_of_op_clear op, whenReservedZero_of_ne _ reserved]

/-! ### The frame of a cleared grid (95 S-5) -/

theorem channelGroup_zero (i : Nat) : channelGroup 0#8 i = 0#2 := by
  simp [channelGroup]

/-- Each channel of the black pixel's code is the code of channel 0 (R121). -/
theorem encPixel_black_channel (p : PulseCode) {q : Nat} (hq : q < 3) :
    (encPixel p Pixel.black).extractLsb' (32 * q) 32 = encChannel p 0#8 := by
  obtain ⟨green, red, blue⟩ := encPixel_channels p Pixel.black
  interval_cases q
  · exact blue
  · exact red
  · exact green

/-- A byte of a field is a byte of the word. -/
theorem extractLsb'_of_extractLsb' {w : Nat} (x : BitVec w) (start : Nat) {i len width : Nat} (h : i + len ≤ width) :
    (x.extractLsb' start width).extractLsb' i len = x.extractLsb' (start + i) len := by
  ext j hj
  have : i + j < width := by omega
  simp [this, Nat.add_assoc]

/-- Every byte of the black pixel's code is P[0]. -/
theorem encPixel_black_byte (p : PulseCode) {i : Nat} (hi : i < 12) :
    (encPixel p Pixel.black).extractLsb' (8 * i) 8 = p.p0 := by
  have inChannel : (encPixel p Pixel.black).extractLsb' (8 * i) 8 =
      ((encPixel p Pixel.black).extractLsb' (32 * (i / 4)) 32).extractLsb' (8 * (i % 4)) 8 := by
    rw [extractLsb'_of_extractLsb' _ _ (by omega), show 32 * (i / 4) + 8 * (i % 4) = 8 * i by omega]
  rw [inChannel, encPixel_black_channel p (by omega), encChannel_byte p _ (by omega), channelGroup_zero,
    PulseCode.lookup_zero]

/-- Settles O36: a cleared grid is populated, and every byte that it assembles to is one of the black pixel's code. -/
theorem clearedGridAssemblesToTheZeroCode : Obligations.ClearedGridAssemblesToTheZeroCode := by
  unfold Obligations.ClearedGridAssemblesToTheZeroCode
  intro s hfa free
  have assembled := execAssemble_of_populated (s := s.cleared) free (populated_cleared s)
  rw [execAll_cons_of_next (exec_clear_eq_cleared s), execAll_cons_of_next (i := .assemble) assembled]
  refine ⟨_, execAll_nil _, fun o active => ?_, fun _ above below => frameByte_padding above below⟩
  have hp : o / 12 < s.cleared.build.cells := Nat.div_lt_of_lt_mul active
  rw [← Nat.div_add_mod o 12, frameByte_assembled (s := s.cleared) hfa hp (Nat.mod_lt o (by decide)), State.codeByte,
    cell_cleared, encPixel_black_byte _ (by omega)]
  rfl

end Machine
end Sys2Proof
end

section
/-! The ports' instructions (R200 to R214): SREAD and NOP, the three transport requests with their faults, and HOST's
render cycle. -/

namespace Sys2Proof

/-! ### Refused words (R94, R97) -/

theorem decodeCommand_of_op_nop {w : CmdWord} (h : Field.op w = 0x00#8) :
    decodeCommand w = whenReservedZero (w.extractLsb' 0 56) .nop := by
  simp [decodeCommand, h]

/-- A word whose OP and reserved bits [55:0] are all zero is the all-zero word. -/
theorem eq_zero_of_op_of_reserved {w : CmdWord} (op : Field.op w = 0x00#8) (reserved : w.extractLsb' 0 56 = 0#56) :
    w = 0#64 := by
  obtain ⟨row, col, red, grn, blu⟩ := (extract_0_56_eq_zero w).mp reserved
  rw [← encodeCmd_fields w, op, row, col, red, grn, blu]
  rfl

theorem decodeTreq_of_acquire_offset_ne {w : ReqWord} (top : Field.top w = 1#2) (offset : Field.offset w ≠ 0#32) :
    decodeTreq w = .error .reservedOffset := by
  rw [decodeTreq_of_top_one top, if_neg offset]

theorem decodeTreq_of_release_offset_ne {w : ReqWord} (top : Field.top w = 3#2) (offset : Field.offset w ≠ 0#32) :
    decodeTreq w = .error .reservedOffset := by
  rw [decodeTreq_of_top_three top, if_neg offset]

/-- The active region lies inside the frame (R62). -/
theorem Build.activeLen_le_frameLen (b : Build) : b.activeLen ≤ b.frameLen := Nat.le_add_right _ _

namespace Machine

/-! ### NOP and the status port (R200, R210) -/

/-- Settles O43: NOP's arm answers its own state, and only the all-zero word has OP 0x00 and no reserved bit set. -/
theorem nopChangesNothing : Obligations.NopChangesNothing := by
  unfold Obligations.NopChangesNothing
  refine ⟨exec_nop, fun w op nonzero => ?_⟩
  rw [decodeCommand_of_op_nop op, whenReservedZero_of_ne _ (mt (eq_zero_of_op_of_reserved op) nonzero)]

/-- LDREM fits its register, because it never exceeds N (R30, R8). -/
theorem statusReg_ldrem_toNat {s : State} (bound : s.ldrem ≤ s.build.cells) : (s.statusReg 10#4).toNat = s.ldrem :=
  (BitVec.toNat_ofNat s.ldrem 32).trans (Nat.mod_eq_of_lt (bound.trans_lt s.build.cells_lt))

/-- An index that names no register reads 0 (R34). -/
theorem statusReg_unnamed (s : State) {i : StatusIdx} (unnamed : 11#4 ≤ i) : s.statusReg i = 0#32 := by
  unfold State.statusReg
  split
  case h_12 => rfl
  all_goals bv_omega

/-- Settles O42: the value is `statusReg`'s, read off index by index. -/
theorem sreadReturnsTheRegister : Obligations.SreadReturnsTheRegister := by
  unfold Obligations.SreadReturnsTheRegister
  intro idx s bound
  refine ⟨s.statusReg idx, exec_sread idx s, ?_, rfl, ?_, ?_, ?_, ?_, ?_, ?ldrem, statusReg_unnamed s⟩
  case ldrem =>
    rintro rfl
    exact statusReg_ldrem_toNat bound
  all_goals
    rintro rfl
    rfl

/-! ### TX_ACQUIRE and TX_RELEASE (R204, R208) -/

theorem execTxAcquire_of_held {s : State} (held : s.txh = true) :
    execTxAcquire s = .next (raiseFault .txProtocol (recordedWord .txAcquire) s) := if_pos held

theorem execTxRelease_of_free {s : State} (free : s.txh = false) :
    execTxRelease s = .next (raiseFault .txProtocol (recordedWord .txRelease) s) :=
  if_neg (ne_true_of_eq_false free)

theorem recordedWord_txAcquire : recordedWord .txAcquire = 0x100000000#64 := by decide

theorem recordedWord_txRelease : recordedWord .txRelease = 0x300000000#64 := by decide

/-- Settles O44: the hold is free or it is not, and TOP 01 takes no OFFSET. -/
theorem txAcquireTakesTheHold : Obligations.TxAcquireTakesTheHold := by
  unfold Obligations.TxAcquireTakesTheHold
  refine ⟨fun s free => execTxAcquire_of_free free, fun s held => ?_, fun w => decodeTreq_of_acquire_offset_ne⟩
  rw [exec_txAcquire, execTxAcquire_of_held held, recordedWord_txAcquire]

/-- Settles O46: the hold is held or it is not, and TOP 11 takes no OFFSET. -/
theorem txReleaseDropsTheHold : Obligations.TxReleaseDropsTheHold := by
  unfold Obligations.TxReleaseDropsTheHold
  refine ⟨fun s held => execTxRelease_of_held held, fun s free => ?_, fun w => decodeTreq_of_release_offset_ne⟩
  rw [exec_txRelease, execTxRelease_of_free free, recordedWord_txRelease]

/-! ### TX_READ (R206) -/

section
variable {offset : Word} {s : State}

theorem execTxRead_of_free (free : s.txh = false) : execTxRead offset s =
    .next (answerUnheld (raiseFault .txProtocol (recordedWord (.txRead offset)) s)) := by
  simp [execTxRead, free]

theorem execTxRead_of_beyond (held : s.txh = true) (beyond : s.build.frameLen ≤ offset.toNat) : execTxRead offset s =
    .next ((raiseFault .txRange (recordedWord (.txRead offset)) s).replyTx 0x00#8) := by
  simp [execTxRead, held, beyond]

theorem execTxRead_of_inside (held : s.txh = true) (inside : offset.toNat < s.build.frameLen) :
    execTxRead offset s = .next (answerRead offset.toNat s) := by
  simp [execTxRead, held, inside]

end

section
variable {o : Nat} {s : State}

theorem replyTx_raiseFault (c : Cause) (w : CmdWord) (b : Byte) :
    (raiseFault c w s).replyTx b = { raiseFault c w s with txReplies := s.txReplies ++ [b] } := by
  rw [State.replyTx, raiseFault_txReplies]

theorem answerUnheld_of_no_memory (memory : s.resetInHold = false) : answerUnheld s = s.replyTx 0x00#8 :=
  if_neg (ne_true_of_eq_false memory)

/-- Before the first ASSEMBLE the active region reads any value (R206). -/
theorem answerRead_of_unassembled (active : o < s.build.activeLen) (unassembled : s.fv = false) :
    answerRead o s = s.replyTxFree := by
  simp [answerRead, active, unassembled]

/-- The padding reads zero, assembled or not (R28, R206). -/
theorem answerRead_of_padding (above : s.build.activeLen ≤ o) (below : o < s.build.frameLen) :
    answerRead o s = s.replyTx 0x00#8 := by
  simp [answerRead, above, frameByte_padding above below]

end

/-- A TX_READ inside the frame answers with some byte and does nothing else (R206). -/
theorem answerRead_cases (o : Nat) (s : State) :
    (∃ b, answerRead o s = s.replyTx b) ∨ answerRead o s = s.replyTxFree := by
  unfold answerRead
  split
  · exact .inr rfl
  · split
    · exact .inl ⟨_, rfl⟩
    · exact .inr rfl

/-- Settles O45: the checks of R231 in order, then the two regions of the frame; once FV = 1, FA holds every active
byte. -/
theorem txReadReturnsTheFrameByte : Obligations.TxReadReturnsTheFrameByte := by
  unfold Obligations.TxReadReturnsTheFrameByte
  intro offset s inv
  simp only [exec_txRead]
  refine ⟨fun free memory => ?_, fun held beyond => ?_, fun held active unassembled => ?_,
    fun held active assembled => ?_, fun held above below => ?_⟩
  · rw [execTxRead_of_free free, answerUnheld_of_no_memory ((raiseFault_resetInHold _ _ s).trans memory),
      replyTx_raiseFault]
    rfl
  · rw [execTxRead_of_beyond held beyond, replyTx_raiseFault]
    rfl
  · rw [execTxRead_of_inside held (active.trans_le s.build.activeLen_le_frameLen),
      answerRead_of_unassembled active unassembled]
    rfl
  · obtain ⟨g, code⟩ := inv.fa_codes assembled _ active
    exact ⟨_, code, execTxRead_of_frameByte held assembled ((frameByte_active active).trans code)⟩
  · rw [execTxRead_of_inside held below, answerRead_of_padding above below]
    rfl

/-! ### Duties, instruction by instruction (R214) -/

/-- Settles O48: each duty is the condition of the effect without a fault, and no such effect touches HALT. -/
theorem dutifulAssembleAndTransportRequestsRaiseNoFault :
    Obligations.DutifulAssembleAndTransportRequestsRaiseNoFault := by
  unfold Obligations.DutifulAssembleAndTransportRequestsRaiseNoFault
  intro s running
  refine ⟨fun duty => ?_, fun duty => ?_, fun offset held inside => ?_, fun held => ?_⟩
  · obtain ⟨full, free⟩ : s.populated = true ∧ s.txh = false := by simpa [State.mayAssemble] using duty
    exact ⟨_, execAssemble_of_populated free full, running, rfl⟩
  · obtain ⟨-, free⟩ : s.fv = true ∧ s.txh = false := by simpa [State.mayAcquire] using duty
    exact ⟨_, execTxAcquire_of_free free, running, rfl⟩
  · refine ⟨_, execTxRead_of_inside held inside, ?_⟩
    obtain ⟨b, answer⟩ | answer := answerRead_cases offset.toNat s <;> simp [answer, running]
  · exact ⟨_, execTxRelease_of_held held, running, rfl⟩

/-! ### HOST's render cycle, word by word (R100, R184, R186, R214) -/

/-- The block with these words on offer from HOST and these turns to come. -/
def State.offering (s : State) (words : List CmdWord) (turns : List Turn) : State :=
  { s with hostQ := words, turns := turns }

/-- On a running block a command-port turn performs the instruction whose encoding HOST offers next, where the phase is
the instruction's own (R100). -/
theorem step_offering {s : State} {i : Instr} {w : CmdWord} (rest : List CmdWord) (ts : List Turn)
    (running : s.halt = false) (coded : encode i = .command w) (phase : s.ld = i.isBeat) :
    step (s.offering (w :: rest) (.command :: ts)) = exec i (s.offering rest ts) := by
  refine step_command_of_ok rfl rfl running ?_
  rw [show (s.offering (w :: rest) (.command :: ts)).ld = i.isBeat from phase, ← coded, decode_isBeat_encode]

/-- The data beat of a colour, as the word that HOST offers (R92). -/
def beatWord (c : Pixel) : CmdWord := 0#40 ++ c.red ++ c.green ++ c.blue

theorem encode_beat_eq_beatWord (c : Pixel) : encode (.beat c.red c.green c.blue) = .command (beatWord c) := rfl

/-- As many beat words as LDREM says, taken on as many command-port turns, end the load (R186). -/
theorem runSteps_beats {s : State} {colours : List Pixel} (rest : List CmdWord) (ts : List Turn)
    (grid : s.grid.length = s.build.cells) (defd : s.defd.length = s.build.cells) (running : s.halt = false)
    (remaining : s.ldrem = colours.length) (bound : s.ldrem ≤ s.build.cells) :
    runSteps colours.length
        (s.offering (colours.map beatWord ++ rest) (List.replicate colours.length .command ++ ts)) =
      .next ((s.loadRest colours).offering rest ts) := by
  induction colours generalizing s with
  | nil => rw [loadRest_nil grid defd remaining]; rfl
  | cons c cs ih =>
    have loading : s.ldrem ≠ 0 := by simp [remaining]
    have beat := (step_offering (cs.map beatWord ++ rest) (List.replicate cs.length .command ++ ts) running
      (encode_beat_eq_beatWord c) (decide_eq_true loading)).trans (execBeat_of_loading c.red c.green c.blue loading)
    rw [← loadRest_cons grid defd c cs loading bound]
    refine (runSteps_succ_of_next beat).trans
      (ih (s := { s.writeCell s.beatIndex c with ldrem := s.ldrem - 1 }) ?_ ?_ running ?_ ?_)
    · simpa using grid
    · simpa using defd
    · simp [remaining]
    · exact (Nat.sub_le _ _).trans bound

/-- The state after LOADGRID and a beat for each of N colours (R184, R186). -/
def State.loaded (s : State) (colours : List Pixel) : State :=
  State.loadRest { s with ldrem := s.build.cells } colours

@[simp] theorem loaded_grid (s : State) (colours : List Pixel) : (s.loaded colours).grid = colours := by
  simp [State.loaded, State.loadRest, State.beatIndex]

theorem defBit_loaded (s : State) {colours : List Pixel} {k : Nat} (hk : k < colours.length) :
    (s.loaded colours).defBit k = true := by
  simp [State.loaded, State.loadRest, State.beatIndex, State.defBit, hk]

theorem populated_loaded {s : State} {colours : List Pixel} (length : colours.length = s.build.cells) :
    (s.loaded colours).populated = true :=
  (populated_iff _).mpr fun _ hk => defBit_loaded s (length ▸ hk)

/-- HOST's render cycle on a running block with a free frame: LOADGRID starts a load of N beats, the beats end it with
the whole grid, and ASSEMBLE finds the grid populated. -/
theorem runSteps_renderCycle {s : State} {colours : List Pixel} (rest : List CmdWord) (ts : List Turn)
    (grid : s.grid.length = s.build.cells) (defd : s.defd.length = s.build.cells) (running : s.halt = false)
    (ready : s.ldrem = 0) (free : s.txh = false) (length : colours.length = s.build.cells) :
    runSteps (colours.length + 2) (s.offering
        (0x0300000000000000#64 :: (colours.map beatWord ++ 0x0400000000000000#64 :: rest))
        (.command :: (List.replicate colours.length .command ++ .command :: ts))) =
      .next (State.offering { s.loaded colours with fa := assembleFrame (s.loaded colours), fv := true } rest ts) := by
  have loadgrid := step_offering (i := .loadgrid) (colours.map beatWord ++ 0x0400000000000000#64 :: rest)
    (List.replicate colours.length .command ++ .command :: ts) running rfl (decide_eq_false (not_not.mpr ready))
  have beats := runSteps_beats (s := { s with ldrem := s.build.cells }) (0x0400000000000000#64 :: rest) (.command :: ts)
    grid defd running length.symm le_rfl
  have assemble := (step_offering (s := s.loaded colours) (i := .assemble) rest ts running rfl rfl).trans
    (execAssemble_of_populated free (populated_loaded length))
  exact (runSteps_succ_of_next loadgrid).trans
    ((runSteps_add_of_next beats).trans (runSteps_succ_of_next assemble))

/-- Settles O57: the offered words are the render cycle's, and of the N + 2 turns the middle N are the beats'. -/
theorem dutifulRenderCycleRaisesNoFault : Obligations.DutifulRenderCycleRaisesNoFault := by
  unfold Obligations.DutifulRenderCycleRaisesNoFault
  intro s colours rest ts grid defd running ready free length offered turns
  rw [List.replicate_succ, List.replicate_succ', List.cons_append, List.append_assoc, List.singleton_append,
    ← length] at turns
  have words : s.hostQ = 0x0300000000000000#64 :: (colours.map beatWord ++ 0x0400000000000000#64 :: rest) := offered
  have cycle := runSteps_renderCycle rest ts grid defd running ready free length
  rw [State.offering, ← turns, ← words, length] at cycle
  exact ⟨_, cycle, running, rfl, rfl, rfl, loaded_grid s colours, populated_loaded length, rfl, rfl, rfl⟩

end Machine
end Sys2Proof
end

section
/-! Exceptions (R230 to R242): the fault check that every instruction passes or records, a step's next state in every
case, and what a halted block keeps. -/

namespace Sys2Proof.Machine

/-! ### An instruction's fault check (R230, R231, R232) -/

/-- What an instruction with word `w` makes of the cause that R230 gives it: with none the fault registers keep their
values, with a real one the fault entry is all that happens. TX_READ answers in either case (R206). -/
inductive FaultCheck (w : CmdWord) (s : State) : Cause → State → Prop
  | passed {t : State} (halt : t.halt = s.halt) (fcause : t.fcause = s.fcause) (fcmd : t.fcmd = s.fcmd) :
      FaultCheck w s .none t
  | recorded {c : Cause} (real : c ≠ .none) : FaultCheck w s c (raiseFault c w s)
  | replyTx {c : Cause} {t : State} (check : FaultCheck w s c t) (b : Byte) : FaultCheck w s c (t.replyTx b)
  | replyTxFree {c : Cause} {t : State} (check : FaultCheck w s c t) : FaultCheck w s c t.replyTxFree

namespace FaultCheck
variable {w : CmdWord} {s t : State} {c : Cause}

theorem answerUnheld (check : FaultCheck w s c t) : FaultCheck w s c (answerUnheld t) := by
  unfold Machine.answerUnheld
  split
  · exact check.replyTxFree
  · exact check.replyTx _

theorem answerRead (check : FaultCheck w s c t) (o : Nat) : FaultCheck w s c (answerRead o t) := by
  obtain ⟨b, answer⟩ | answer := answerRead_cases o t <;> rw [answer]
  · exact check.replyTx b
  · exact check.replyTxFree

theorem fault_registers_kept (check : FaultCheck w s .none t) :
    t.halt = s.halt ∧ t.fcause = s.fcause ∧ t.fcmd = s.fcmd := by
  generalize none : Cause.none = c at check
  induction check with
  | passed halt fcause fcmd => exact ⟨halt, fcause, fcmd⟩
  | recorded real => exact absurd none.symm real
  | replyTx _ _ ih | replyTxFree _ ih => exact ih none

/-- A faulting instruction leaves all but the transport port's answers as the fault entry does. -/
theorem eq_raiseFault_but_answers (check : FaultCheck w s c t) (real : c ≠ .none) :
    { t with txReplies := s.txReplies, draws := s.draws } = raiseFault c w s := by
  induction check with
  | passed => exact absurd rfl real
  | recorded => rw [← raiseFault_txReplies _ w s, ← raiseFault_draws _ w s]
  | replyTx _ _ ih | replyTxFree _ ih => exact ih real

end FaultCheck

/-- Every instruction, in every state, makes of R230's cause what `FaultCheck` says. -/
theorem exec_faultCheck (i : Instr) (s : State) :
    ∃ t, exec i s = .next t ∧ FaultCheck (recordedWord i) s (expectedCause i s) t := by
  cases i with
  | nop | clear | loadgrid | enc | encpix | sread => exact ⟨_, rfl, .passed rfl rfl rfl⟩
  | wrpix row col red green blue =>
    dsimp only [expectedCause]
    split
    next inside => exact ⟨_, execWrpix_of_inRange red green blue inside, .passed rfl rfl rfl⟩
    next outside =>
      exact ⟨_, execWrpix_of_not_inRange red green blue (eq_false_of_ne_true outside), .recorded (by decide)⟩
  | beat red green blue =>
    dsimp only [expectedCause]
    split
    next ended => exact ⟨_, if_pos ended, .recorded (by decide)⟩
    next loading => exact ⟨_, execBeat_of_loading red green blue loading, .passed rfl rfl rfl⟩
  | assemble =>
    dsimp only [expectedCause]
    split
    next held => exact ⟨_, execAssemble_of_held held, .recorded (by decide)⟩
    next notHeld =>
      have free := eq_false_of_ne_true notHeld
      split
      next full => exact ⟨_, execAssemble_of_populated free full, .passed rfl rfl rfl⟩
      next lacking =>
        exact ⟨_, execAssemble_of_not_populated free (eq_false_of_ne_true lacking), .recorded (by decide)⟩
  | physidx row col =>
    dsimp only [expectedCause]
    split
    next inside => exact ⟨_, execPhysidx_of_inRange inside, .passed rfl rfl rfl⟩
    next outside => exact ⟨_, execPhysidx_of_not_inRange (eq_false_of_ne_true outside), .recorded (by decide)⟩
  | txAcquire =>
    dsimp only [expectedCause]
    split
    next held => exact ⟨_, execTxAcquire_of_held held, .recorded (by decide)⟩
    next notHeld => exact ⟨_, execTxAcquire_of_free (eq_false_of_ne_true notHeld), .passed rfl rfl rfl⟩
  | txRead offset =>
    dsimp only [expectedCause]
    split
    next notHeld =>
      have free : s.txh = false := by simpa using notHeld
      exact ⟨_, execTxRead_of_free free, (FaultCheck.recorded (by decide)).answerUnheld⟩
    next isHeld =>
      have held : s.txh = true := by simpa using isHeld
      split
      next beyond => exact ⟨_, execTxRead_of_beyond held beyond, (FaultCheck.recorded (by decide)).replyTx _⟩
      next inside =>
        exact ⟨_, execTxRead_of_inside held (Nat.lt_of_not_le inside), (FaultCheck.passed rfl rfl rfl).answerRead _⟩
  | txRelease =>
    dsimp only [expectedCause]
    split
    next held => exact ⟨_, execTxRelease_of_held held, .passed rfl rfl rfl⟩
    next notHeld => exact ⟨_, execTxRelease_of_free (eq_false_of_ne_true notHeld), .recorded (by decide)⟩

/-- Settles O14: fault entry on a running and on a halted block. -/
theorem firstFaultIsRecordedLaterOnesAreNot : Obligations.FirstFaultIsRecordedLaterOnesAreNot := by
  unfold Obligations.FirstFaultIsRecordedLaterOnesAreNot
  exact fun _ _ _ => ⟨raiseFault_of_running, raiseFault_of_halt⟩

/-- Settles O15: the two readings of the instruction's fault check. -/
theorem instructionFaultsExactlyWhenTheTableSays : Obligations.InstructionFaultsExactlyWhenTheTableSays := by
  unfold Obligations.InstructionFaultsExactlyWhenTheTableSays
  intro i s running
  obtain ⟨t, run, check⟩ := exec_faultCheck i s
  refine ⟨t, run, fun none => ?_, fun real => ?_⟩
  · rw [none] at check
    rw [← running]
    exact check.fault_registers_kept
  · have recorded := check.eq_raiseFault_but_answers real
    rw [raiseFault_of_running running, State.mk.injEq] at recorded
    simp [recorded]

/-! ### Turns with nothing to take (R242; log entry 4) -/

section
variable {s : State} {ts : List Turn}

theorem step_of_no_turn (ht : s.turns = []) : step s = .next s := by
  simp [step, takeTurn, ht]

theorem step_reset (ht : s.turns = .reset :: ts) : step s = .next (assertReset { s with turns := ts }) := by
  simp [step, takeTurn, serve, ht]

theorem step_command_of_nil (ht : s.turns = .command :: ts) (hq : s.hostQ = []) :
    step s = .next { s with turns := ts } := by
  simp [step, takeTurn, serve, serveCommand, ht, hq]

theorem step_transport_of_nil (ht : s.turns = .transport :: ts) (hq : s.txQ = []) :
    step s = .next { s with turns := ts } := by
  simp [step, takeTurn, serve, serveTransport, ht, hq]

theorem step_status_of_nil (ht : s.turns = .status :: ts) (hq : s.statusQ = []) :
    step s = .next { s with turns := ts } := by
  simp [step, takeTurn, serve, serveStatus, ht, hq]

end

/-- Settles O10: no turn, and each port's turn with nothing offered on it. -/
theorem idleBlockKeepsItsState : Obligations.IdleBlockKeepsItsState := by
  unfold Obligations.IdleBlockKeepsItsState
  exact ⟨fun _ => step_of_no_turn, fun _ _ => step_command_of_nil, fun _ _ => step_transport_of_nil,
    fun _ _ => step_status_of_nil⟩

/-! ### No step stops the machine (R232; log entry 14) -/

/-- Every transaction answers a next state: its instruction does, and a word of none is idle or ILLEGAL. -/
theorem exists_perform_eq_next (pw : PortWord) (s : State) : ∃ t, perform pw s = .next t := by
  cases word : decode s.ld pw with
  | ok i =>
    obtain ⟨t, run, -⟩ := exec_faultCheck i s
    exact ⟨t, (perform_of_ok word).trans run⟩
  | error r =>
    by_cases idle : r = .idle
    · exact ⟨s, perform_of_idle (idle ▸ word)⟩
    · exact ⟨_, perform_of_error word idle⟩

/-- Settles O13: turn by turn, each with and without something to take. -/
theorem everyStepAnswersANextState : Obligations.EveryStepAnswersANextState := by
  unfold Obligations.EveryStepAnswersANextState
  intro s
  cases ht : s.turns with
  | nil => exact ⟨s, step_of_no_turn ht⟩
  | cons turn ts =>
    cases turn with
    | reset => exact ⟨_, step_reset ht⟩
    | command =>
      cases hh : s.halt with
      | true => exact ⟨_, step_command_of_halt ht hh⟩
      | false =>
        cases hq : s.hostQ with
        | nil => exact ⟨_, step_command_of_nil ht hq⟩
        | cons w rest => rw [step_command ht hq hh]; exact exists_perform_eq_next _ _
    | transport =>
      cases hq : s.txQ with
      | nil => exact ⟨_, step_transport_of_nil ht hq⟩
      | cons w rest => rw [step_transport ht hq]; exact exists_perform_eq_next _ _
    | status =>
      cases hq : s.statusQ with
      | nil => exact ⟨_, step_status_of_nil ht hq⟩
      | cons i rest => rw [step_status ht hq]; exact exists_perform_eq_next _ _

/-! ### The halted block (R234) -/

/-- HOST's words and the data that R234 names are the same in both states. -/
def HostDataKept (s t : State) : Prop :=
  t.hostQ = s.hostQ ∧ t.grid = s.grid ∧ t.defd = s.defd ∧ t.fa = s.fa ∧ t.fv = s.fv ∧
    t.res0 = s.res0 ∧ t.res1 = s.res1 ∧ t.res2 = s.res2 ∧ t.ldrem = s.ldrem

theorem hostDataKept_refl (s : State) : HostDataKept s s := ⟨rfl, rfl, rfl, rfl, rfl, rfl, rfl, rfl, rfl⟩

theorem hostDataKept_raiseFault (c : Cause) (w : CmdWord) (s : State) : HostDataKept s (raiseFault c w s) := by
  simp [HostDataKept]

/-- A transport request or a status read writes none of HOST's data. -/
theorem Effect.hostDataKept {i : Instr} {s t : State} (effect : Effect s i t)
    (elsewhere : ∀ w, encode i ≠ .command w) : HostDataKept s t := by
  cases effect with
  | nop | wrpix | clear | loadgrid | beat | assemble | enc | encpix | physidx => exact absurd rfl (elsewhere _)
  | fault => exact hostDataKept_raiseFault _ _ _
  | txRead checked | txReadFree checked =>
    obtain rfl | ⟨c, -, rfl⟩ := checked
    · exact hostDataKept_refl _
    · exact hostDataKept_raiseFault _ _ _
  | txAcquire | txRelease | sread => exact hostDataKept_refl _

/-- A transaction of the transport port or of the status port writes none of HOST's data. -/
theorem hostDataKept_of_perform {pw : PortWord} {s t : State} (h : perform pw s = .next t)
    (elsewhere : ∀ w, pw ≠ .command w) : HostDataKept s t := by
  obtain ⟨i, word, run⟩ | ⟨-, rfl⟩ | ⟨r, -, -, rfl⟩ := perform_cases h
  · have coded : encode i = pw := everyDecodedWordIsAnEncoding _ _ _ word
    exact (effect_of_exec run).hostDataKept (coded ▸ elsewhere)
  · exact hostDataKept_refl t
  · exact hostDataKept_raiseFault _ _ s

/-- While HALT = 1 a step that is no reset writes none of HOST's data: it passes, or serves another port. -/
theorem hostDataKept_of_step {s t : State} (halted : s.halt = true) (noReset : s.turns.head? ≠ some .reset)
    (h : step s = .next t) : HostDataKept s t := by
  obtain ⟨-, rfl⟩ | ⟨turn, ts, ht, served⟩ := step_cases h
  · exact hostDataKept_refl t
  · obtain ⟨rfl, -⟩ | ⟨-, rfl⟩ | ⟨w, rest, -, running, -⟩ | ⟨w, rest, -, -, h⟩ | ⟨i, rest, -, -, h⟩ := served
    · exact absurd (by rw [ht]; rfl) noReset
    · exact hostDataKept_refl _
    · exact absurd halted (ne_true_of_eq_false running)
    · have kept := hostDataKept_of_perform h nofun
      exact kept
    · have kept := hostDataKept_of_perform h nofun
      exact kept

/-- Settles O16: what the step keeps, and the transactions of the two ports that go on. -/
theorem haltedBlockAcceptsNoCommandWord : Obligations.HaltedBlockAcceptsNoCommandWord := by
  unfold Obligations.HaltedBlockAcceptsNoCommandWord
  intro s turn ts halted ht noReset
  refine ⟨?_, ?_, ?_⟩
  · obtain ⟨t, run⟩ := everyStepAnswersANextState s
    exact ⟨t, run, hostDataKept_of_step halted (by simpa [ht] using noReset) run⟩
  · rintro w rest i rfl hq word
    exact (transportPortTakesTheNextRequest s w rest ts ht hq).1 i word
  · rintro i rest rfl hq
    exact statusPortTakesTheNextRead s i rest ts ht hq

end Sys2Proof.Machine
end

section
/-! Reset (R270 to R276): the values it gives, what it alone clears, and what it leaves to TRANSPORT after a hold. -/

namespace Sys2Proof.Machine

/-! ### The reset values (R270) -/

/-- A block right after reset, reset again, is as it was. -/
theorem assertReset_resetOf (b : Build) : assertReset (State.resetOf b) = State.resetOf b := rfl

/-- Settles O51: a block right after reset is one that reset leads to. -/
theorem invariantHoldsAfterReset : Obligations.InvariantHoldsAfterReset := by
  unfold Obligations.InvariantHoldsAfterReset
  have atReset (b : Build) : BlockInv (State.resetOf b) := assertReset_resetOf b ▸ BlockInv.assertReset _
  exact ⟨atReset, atReset Build.reference⟩

theorem defBit_assertReset (s : State) (k : Nat) : (assertReset s).defBit k = false := by
  simp [State.defBit, List.getElem?_getD_replicate_default_eq]

/-- Settles O18: the state that reset answers, field by field; the padding and the configuration have no storage. -/
theorem resetGivesTheResetValues : Obligations.ResetGivesTheResetValues := by
  unfold Obligations.ResetGivesTheResetValues
  intro s ts ht
  have defd (k : Nat) : (assertReset { s with turns := ts }).defBit k = false := defBit_assertReset _ k
  refine ⟨_, step_reset ht, rfl, List.length_replicate, defd, fun _ => rfl, fun o => frameByte_padding, ?_⟩
  simp [State.ld]

/-! ### What no other step clears (R272) -/

/-- No DEF bit and no byte of FA is lost from `s` to `t`, nor FV, nor the fault record of a halted block. -/
def ClearsNothing (s t : State) : Prop :=
  (∀ k, s.defBit k = true → t.defBit k = true) ∧
  (s.fv = true → t.fv = true) ∧
  (s.halt = true → t.halt = true ∧ t.fcause = s.fcause ∧ t.fcmd = s.fcmd) ∧
  (∀ a, s.fa.read a ≠ none → t.fa.read a ≠ none)

theorem clearsNothing_refl (s : State) : ClearsNothing s s :=
  ⟨fun _ => id, id, fun halted => ⟨halted, rfl, rfl⟩, fun _ => id⟩

/-- A fault on a halted block is not recorded, and none touches DEF, FV or FA (R232). -/
theorem clearsNothing_raiseFault (c : Cause) (w : CmdWord) (s : State) : ClearsNothing s (raiseFault c w s) := by
  cases running : s.halt with
  | true => rw [raiseFault_of_halt running]; exact clearsNothing_refl s
  | false =>
    rw [raiseFault_of_running running]
    exact ⟨fun _ => id, id, fun halted => absurd halted (ne_true_of_eq_false running), fun _ => id⟩

theorem clearsNothing_of_checked {i : Instr} {s u : State} (checked : Checked i s u) : ClearsNothing s u := by
  obtain rfl | ⟨c, -, rfl⟩ := checked
  · exact clearsNothing_refl u
  · exact clearsNothing_raiseFault c _ s

/-- A cell with DEF = 1 is one of the array's. -/
theorem lt_length_of_defBit {s : State} {k : Nat} (written : s.defBit k = true) : k < s.defd.length := by
  by_contra beyond
  simp [State.defBit, Nat.not_lt.mp beyond] at written

/-- Writing a cell sets its DEF bit and keeps the others (R180). -/
theorem clearsNothing_writeCell (s : State) (k : Nat) (px : Pixel) : ClearsNothing s (s.writeCell k px) := by
  refine ⟨fun j written => ?_, id, fun halted => ⟨halted, rfl, rfl⟩, fun _ => id⟩
  by_cases here : j = k
  · subst here
    exact defBit_writeCell_same (lt_length_of_defBit written) px
  · rwa [defBit_writeCell_of_ne here]

/-- CLEAR sets the DEF bit of every cell (R182). -/
theorem clearsNothing_cleared {s : State} (inv : BlockInv s) : ClearsNothing s s.cleared := by
  refine ⟨fun k written => ?_, id, fun halted => ⟨halted, rfl, rfl⟩, fun _ => id⟩
  exact defBit_cleared (inv.defd_length ▸ lt_length_of_defBit written)

/-- ASSEMBLE gives every active byte a code and leaves the others as they are (R160). -/
theorem clearsNothing_assembled {s : State} (inv : BlockInv s) :
    ClearsNothing s { s with fa := assembleFrame s, fv := true } := by
  refine ⟨fun _ => id, fun _ => rfl, fun halted => ⟨halted, rfl, rfl⟩, fun a (valued : s.fa.read a ≠ none) => ?_⟩
  show (assembleFrame s).read a ≠ none
  by_cases active : a < s.build.activeLen
  · obtain ⟨g, code⟩ := read_assembleFrame_code inv.fa_wf active
    simp [code]
  · rwa [read_assembleFrame_of_ge inv.fa_wf (Nat.not_lt.mp active)]

/-- Only the writes of the grid, ASSEMBLE and the faults touch what reset clears, and none of them clears it. -/
theorem Effect.clearsNothing {i : Instr} {s t : State} (inv : BlockInv s) (effect : Effect s i t) :
    ClearsNothing s t := by
  cases effect with
  | fault => exact clearsNothing_raiseFault _ _ s
  | wrpix => exact clearsNothing_writeCell s _ _
  | beat red green blue => exact clearsNothing_writeCell s s.beatIndex ⟨red, green, blue⟩
  | clear => exact clearsNothing_cleared inv
  | assemble => exact clearsNothing_assembled inv
  | txRead checked | txReadFree checked =>
    have recorded := clearsNothing_of_checked checked
    exact recorded
  | nop | loadgrid | enc | encpix | physidx | txAcquire | txRelease | sread => exact clearsNothing_refl s

theorem clearsNothing_of_perform {pw : PortWord} {s t : State} (inv : BlockInv s) (h : perform pw s = .next t) :
    ClearsNothing s t := by
  obtain ⟨i, -, run⟩ | ⟨-, rfl⟩ | ⟨r, -, -, rfl⟩ := perform_cases h
  · exact (effect_of_exec run).clearsNothing inv
  · exact clearsNothing_refl t
  · exact clearsNothing_raiseFault _ _ s

/-- Settles O17: a step without reset passes a turn or performs a transaction, which clears nothing. -/
theorem onlyResetClearsWhatItClears : Obligations.OnlyResetClearsWhatItClears := by
  unfold Obligations.OnlyResetClearsWhatItClears
  intro s t inv noReset h
  show ClearsNothing s t
  obtain ⟨-, rfl⟩ | ⟨turn, ts, ht, served⟩ := step_cases h
  · exact clearsNothing_refl t
  · obtain ⟨rfl, -⟩ | ⟨-, rfl⟩ | ⟨w, rest, -, -, -, h⟩ | ⟨w, rest, -, -, h⟩ | ⟨i, rest, -, -, h⟩ := served
    · exact absurd (congrArg List.head? ht) noReset
    · exact clearsNothing_refl s
    · have kept := clearsNothing_of_perform (inv.offered ts rest s.txQ s.statusQ) h
      exact kept
    · have kept := clearsNothing_of_perform (inv.offered ts s.hostQ rest s.statusQ) h
      exact kept
    · have kept := clearsNothing_of_perform (inv.offered ts s.hostQ s.txQ rest) h
      exact kept

/-! ### A reset during a hold (R276) -/

/-- R276: of the instructions only TX_ACQUIRE ends the memory of a reset in a hold. -/
theorem Effect.resetInHold_eq {i : Instr} {s t : State} (effect : Effect s i t) (other : i ≠ .txAcquire) :
    t.resetInHold = s.resetInHold := by
  cases effect with
  | txAcquire => exact absurd rfl other
  | txRead checked | txReadFree checked => rcases checked with rfl | ⟨c, -, rfl⟩ <;> simp
  | _ => simp

theorem answerUnheld_of_memory {s : State} (memory : s.resetInHold = true) : answerUnheld s = s.replyTxFree :=
  if_pos memory

theorem replyTxFree_raiseFault (c : Cause) (w : CmdWord) (s : State) : (raiseFault c w s).replyTxFree =
    { raiseFault c w s with txReplies := s.txReplies ++ [Config.freeByte s.draws], draws := s.draws + 1 } := by
  rw [State.replyTxFree, raiseFault_txReplies, raiseFault_draws]

/-- Settles O20: reset remembers the hold, an effect other than TX_ACQUIRE's keeps the memory, and with it an unheld
TX_READ draws the free byte. -/
theorem readAfterAResetInAHoldReturnsAnyValue : Obligations.ReadAfterAResetInAHoldReturnsAnyValue := by
  unfold Obligations.ReadAfterAResetInAHoldReturnsAnyValue
  refine ⟨fun s ts ht held => ⟨_, step_reset ht, by simp [held]⟩, fun i s t memory run ended => ?_,
    fun offset s free memory => ?_⟩
  · by_contra other
    have kept := (effect_of_exec run).resetInHold_eq other
    simp [memory, ended] at kept
  · rw [exec_txRead, execTxRead_of_free free, answerUnheld_of_memory ((raiseFault_resetInHold _ _ s).trans memory),
      replyTxFree_raiseFault]
    rfl

end Sys2Proof.Machine
end
